-- ==== Sys2Proof/Word.lean ====
section
/-! DEFINITION. The words, operands and port drives of the MICS2-12 LFSR core: the 4-bit command word
(30_encoding.md R50), the four module types (00_scope.md R1), the operand spellings of a model command (R55) and
what a driver puts on one instance's ports in one cycle (R54, R58). -/

namespace Sys2Proof

/-- The command word `C[3:0]`, R50. -/
abbrev CommandWord := BitVec 4

/-- The op code field `C[2:0]`, R50. -/
abbrev OpCode := BitVec 3

/-- The four module types, R1. -/
inductive ModuleType where
  | lfsr | nlf | cg | fr
  deriving DecidableEq, Repr

/-- An operand as a model command spells it, R55 and R59: an integer, or a bit list written position 0 first. -/
inductive Operand where
  | num (k : Int)
  | bits (l : List Bool)
  deriving DecidableEq, Repr

/-- The data ports an operand can arrive on: `d_i`, `k0_i`, `k1_i`, `k2_i`, `rnd_i`, `x_i` (R28 to R31, R54). -/
inductive DataPort where
  | d | k0 | k1 | k2 | rnd | x
  deriving DecidableEq, Repr

/-- One cycle's drive of one instance: which module type, its command word, and its data ports (R50, R54, R58). The
draw `rnd` is the value on `rnd_i` (R27), an operand as the others are (R54). Ports the command does not read are
ignored (R54). -/
structure PortDrive where
  target : ModuleType
  cmd : CommandWord
  d : Operand := .num 0
  k0 : Operand := .num 0
  k1 : Operand := .num 0
  k2 : Operand := .num 0
  rnd : Operand := .num 0
  x : Operand := .num 0
  deriving DecidableEq, Repr

end Sys2Proof
end

