-- ==== Sys2Proof/Config.lean ====
section
/-! DEFINITION. What an instance fixes at elaboration: the configuration records of 10_state.md R15 and their
legality (R16, R17), and the free value of the model: the contents the spec leaves unspecified. -/

namespace Sys2Proof

/-- `LFSR` record, R15: the register length, the tap mask (R17), the function its `EVAL` evaluates (R18). -/
structure LfsrConfig where
  N : Nat
  T : BitVec N
  F : List (BitVec N)
  deriving DecidableEq, Repr

/-- `NLF` record, R15. -/
structure NlfConfig where
  N : Nat
  F : List (BitVec N)
  deriving DecidableEq, Repr

/-- `CG` record, R15: one tap mask per register, one length for the three, and the truth table (R19). -/
structure CgConfig where
  N : Nat
  T0 : BitVec N
  T1 : BitVec N
  T2 : BitVec N
  TT : BitVec 8
  deriving DecidableEq, Repr

/-- `FR` record, R15: the tap mask and the filter function. -/
structure FrConfig where
  N : Nat
  T : BitVec N
  F : List (BitVec N)
  deriving DecidableEq, Repr

/-- A tap mask is legal when tap 0 is present, R17. -/
abbrev LegalTaps {N : Nat} (T : BitVec N) : Prop := T.getLsbD 0 = true

/-- R16, R17. -/
abbrev LfsrConfig.Legal (c : LfsrConfig) : Prop := 1 ≤ c.N ∧ LegalTaps c.T

/-- R16. -/
abbrev NlfConfig.Legal (c : NlfConfig) : Prop := 1 ≤ c.N

/-- R16, R17 for each of the three registers; every truth table is legal, R19. -/
abbrev CgConfig.Legal (c : CgConfig) : Prop := 1 ≤ c.N ∧ LegalTaps c.T0 ∧ LegalTaps c.T1 ∧ LegalTaps c.T2

/-- R16, R17. -/
abbrev FrConfig.Legal (c : FrConfig) : Prop := 1 ≤ c.N ∧ LegalTaps c.T

/-- FREE VALUE (log entry 3): the contents of an `N`-bit register that the spec leaves unspecified or
implementation-defined (R113, R115; 93_implementation_defined.md I1, I2, I3, I13), the `k`-th one of a run. Nothing
can be proved of its value. -/
opaque Config.unspecified (N k : Nat) : BitVec N

end Sys2Proof
end

