-- ==== Sys2Proof/Syntax.lean ====
section
/-! DEFINITION. The commands of all four module types, one constructor per row of spec/opcode_table.json (R51, R56,
R61). A reset carries the ignored op bits of its word (`1xxx`), so that no bit of a word is lost. -/

namespace Sys2Proof

/-- One command with the operands it takes from the data ports (R54). -/
inductive Instr where
  | lfsrReset (op : OpCode)
  | lfsrNop
  | lfsrStep
  | lfsrLoad (v : Operand)
  | lfsrLoadRandom (rnd : Operand)
  | lfsrEval
  | lfsrIllegal101
  | lfsrIllegal110
  | lfsrIllegal111
  | nlfEval (x : Operand)
  | cgReset (op : OpCode)
  | cgNop
  | cgStep
  | cgSetState (k0 : Operand) (k1 : Operand) (k2 : Operand)
  | cgEval
  | cgIllegal011
  | cgIllegal101
  | cgIllegal110
  | cgIllegal111
  | frReset (op : OpCode) (rnd : Operand)
  | frNop
  | frStep
  | frEval
  | frIllegal010
  | frIllegal011
  | frIllegal101
  | frIllegal110
  | frIllegal111
  deriving DecidableEq, Repr

/-- The module type that has the command, R51. -/
def Instr.module : Instr → ModuleType
  | .lfsrReset _ | .lfsrNop | .lfsrStep | .lfsrLoad _ | .lfsrLoadRandom _ | .lfsrEval => .lfsr
  | .lfsrIllegal101 | .lfsrIllegal110 | .lfsrIllegal111 => .lfsr
  | .nlfEval _ => .nlf
  | .cgReset _ | .cgNop | .cgStep | .cgSetState _ _ _ | .cgEval => .cg
  | .cgIllegal011 | .cgIllegal101 | .cgIllegal110 | .cgIllegal111 => .cg
  | .frReset _ _ | .frNop | .frStep | .frEval => .fr
  | .frIllegal010 | .frIllegal011 | .frIllegal101 | .frIllegal110 | .frIllegal111 => .fr

/-- The command word is reserved for its module type, R56. -/
def Instr.isIllegal : Instr → Bool
  | .lfsrIllegal101 | .lfsrIllegal110 | .lfsrIllegal111 => true
  | .cgIllegal011 | .cgIllegal101 | .cgIllegal110 | .cgIllegal111 => true
  | .frIllegal010 | .frIllegal011 | .frIllegal101 | .frIllegal110 | .frIllegal111 => true
  | .lfsrReset _ | .lfsrNop | .lfsrStep | .lfsrLoad _ | .lfsrLoadRandom _ | .lfsrEval => false
  | .nlfEval _ => false
  | .cgReset _ | .cgNop | .cgStep | .cgSetState _ _ _ | .cgEval => false
  | .frReset _ _ | .frNop | .frStep | .frEval => false

/-- The command returns a bit on `res_o`: `STEP` and `EVAL` of `LFSR`, `CG` and `FR`, R53. -/
def Instr.drivesResult : Instr → Bool
  | .lfsrStep | .lfsrEval | .cgStep | .cgEval | .frStep | .frEval => true
  | .lfsrReset _ | .lfsrNop | .lfsrLoad _ | .lfsrLoadRandom _ => false
  | .lfsrIllegal101 | .lfsrIllegal110 | .lfsrIllegal111 => false
  | .nlfEval _ => false
  | .cgReset _ | .cgNop | .cgSetState _ _ _ => false
  | .cgIllegal011 | .cgIllegal101 | .cgIllegal110 | .cgIllegal111 => false
  | .frReset _ _ | .frNop => false
  | .frIllegal010 | .frIllegal011 | .frIllegal101 | .frIllegal110 | .frIllegal111 => false

/-- The command adds a bit to the run's observation (R126): one that drives `res_o`, or an `NLF` evaluation, whose
`y_o` is read (R29). -/
def Instr.observesBit (i : Instr) : Bool :=
  i.drivesResult || decide (i.module = .nlf)

end Sys2Proof
end

