-- ==== Sys2Proof/WellFormed.lean ====
section
/-! DEFINITION. When a command's operands are exactly as wide as the instance's ports (20_memory.md R45, 30_encoding.md
R55, 60_exceptions.md R99). A command that fails a check does not exist: the machine refuses it with `InvalidLength`. The
check on a draw (R54) is log entry 10, that on an `NLF` input log entry 12. -/

namespace Sys2Proof

/-- The register length of each instance the commands address (R7). -/
structure Widths where
  lfsr : Nat
  nlf : Nat
  cg : Nat
  fr : Nat
  deriving DecidableEq, Repr

/-- The operand denotes exactly `N` bits: an integer in `[0, 2^N)`, or a list of `N` bits (R55). -/
def Operand.fits (N : Nat) : Operand → Bool
  | .num k => decide (0 ≤ k) && decide (k < 2 ^ N)
  | .bits l => decide (l.length = N)

/-- Every operand of the command is of the width its port has (R54). -/
def Instr.wellFormed (w : Widths) : Instr → Bool
  | .lfsrLoad v => v.fits w.lfsr
  | .lfsrLoadRandom rnd => rnd.fits w.lfsr
  | .nlfEval x => x.fits w.nlf
  | .cgSetState k0 k1 k2 => k0.fits w.cg && k1.fits w.cg && k2.fits w.cg
  | .frReset _ rnd => rnd.fits w.fr
  | .lfsrReset _ | .lfsrNop | .lfsrStep | .lfsrEval => true
  | .lfsrIllegal101 | .lfsrIllegal110 | .lfsrIllegal111 => true
  | .cgReset _ | .cgNop | .cgStep | .cgEval => true
  | .cgIllegal011 | .cgIllegal101 | .cgIllegal110 | .cgIllegal111 => true
  | .frNop | .frStep | .frEval => true
  | .frIllegal010 | .frIllegal011 | .frIllegal101 | .frIllegal110 | .frIllegal111 => true

end Sys2Proof
end

