-- ==== Sys2Proof/Decode.lean ====
section
/-! DEFINITION. The decoder of each module type (30_encoding.md R50 to R52, R56), total on all 16 words; the encoder,
written from the same op code table; and that table's rows (R61). A reserved word decodes to its own `ILLEGAL` row, so
it never falls through to a neighbour. -/

namespace Sys2Proof

/-- `C[2:0]`, R50. -/
def opField (c : CommandWord) : OpCode := c.extractLsb' 0 3

/-- `LFSR`: R52 in its order, then the `LFSR` column of R51. -/
def decodeLfsr (p : PortDrive) : Instr :=
  match p.cmd.getLsbD 3, p.cmd.getLsbD 2, p.cmd.getLsbD 1, p.cmd.getLsbD 0 with
  | true, _, _, _ => .lfsrReset (opField p.cmd)
  | false, false, false, false => .lfsrNop
  | false, false, false, true => .lfsrStep
  | false, false, true, false => .lfsrLoad p.d
  | false, false, true, true => .lfsrLoadRandom p.rnd
  | false, true, false, false => .lfsrEval
  | false, true, false, true => .lfsrIllegal101
  | false, true, true, false => .lfsrIllegal110
  | false, true, true, true => .lfsrIllegal111

/-- `CG`: R52 in its order, then the `CG` column of R51. -/
def decodeCg (p : PortDrive) : Instr :=
  match p.cmd.getLsbD 3, p.cmd.getLsbD 2, p.cmd.getLsbD 1, p.cmd.getLsbD 0 with
  | true, _, _, _ => .cgReset (opField p.cmd)
  | false, false, false, false => .cgNop
  | false, false, false, true => .cgStep
  | false, false, true, false => .cgSetState p.k0 p.k1 p.k2
  | false, false, true, true => .cgIllegal011
  | false, true, false, false => .cgEval
  | false, true, false, true => .cgIllegal101
  | false, true, true, false => .cgIllegal110
  | false, true, true, true => .cgIllegal111

/-- `FR`: R52 in its order, then the `FR` column of R51. -/
def decodeFr (p : PortDrive) : Instr :=
  match p.cmd.getLsbD 3, p.cmd.getLsbD 2, p.cmd.getLsbD 1, p.cmd.getLsbD 0 with
  | true, _, _, _ => .frReset (opField p.cmd) p.rnd
  | false, false, false, false => .frNop
  | false, false, false, true => .frStep
  | false, false, true, false => .frIllegal010
  | false, false, true, true => .frIllegal011
  | false, true, false, false => .frEval
  | false, true, false, true => .frIllegal101
  | false, true, true, false => .frIllegal110
  | false, true, true, true => .frIllegal111

/-- What an instance does with one cycle's drive (R52). `NLF` has no command word: it evaluates its input (R29, R73). -/
def decode (p : PortDrive) : Instr :=
  match p.target with
  | .lfsr => decodeLfsr p
  | .nlf => .nlfEval p.x
  | .cg => decodeCg p
  | .fr => decodeFr p

/-- The command word of a command (R51, R56); a reset keeps its op bits behind `C[3] = 1`. `NLF` has none, given 0. -/
def Instr.word : Instr → CommandWord
  | .lfsrReset op => 1#1 ++ op
  | .lfsrNop => 0b0000
  | .lfsrStep => 0b0001
  | .lfsrLoad _ => 0b0010
  | .lfsrLoadRandom _ => 0b0011
  | .lfsrEval => 0b0100
  | .lfsrIllegal101 => 0b0101
  | .lfsrIllegal110 => 0b0110
  | .lfsrIllegal111 => 0b0111
  | .nlfEval _ => 0b0000
  | .cgReset op => 1#1 ++ op
  | .cgNop => 0b0000
  | .cgStep => 0b0001
  | .cgSetState _ _ _ => 0b0010
  | .cgEval => 0b0100
  | .cgIllegal011 => 0b0011
  | .cgIllegal101 => 0b0101
  | .cgIllegal110 => 0b0110
  | .cgIllegal111 => 0b0111
  | .frReset op _ => 1#1 ++ op
  | .frNop => 0b0000
  | .frStep => 0b0001
  | .frEval => 0b0100
  | .frIllegal010 => 0b0010
  | .frIllegal011 => 0b0011
  | .frIllegal101 => 0b0101
  | .frIllegal110 => 0b0110
  | .frIllegal111 => 0b0111

/-- The drive that presents a command: its word, and each operand on the port R54 names, the other ports at 0. -/
def encode (i : Instr) : PortDrive :=
  let bare : PortDrive := { target := i.module, cmd := i.word }
  match i with
  | .lfsrLoad v => { bare with d := v }
  | .lfsrLoadRandom rnd => { bare with rnd := rnd }
  | .nlfEval x => { bare with x := x }
  | .cgSetState k0 k1 k2 => { bare with k0 := k0, k1 := k1, k2 := k2 }
  | .frReset _ rnd => { bare with rnd := rnd }
  | .lfsrReset _ | .lfsrNop | .lfsrStep | .lfsrEval => bare
  | .lfsrIllegal101 | .lfsrIllegal110 | .lfsrIllegal111 => bare
  | .cgReset _ | .cgNop | .cgStep | .cgEval => bare
  | .cgIllegal011 | .cgIllegal101 | .cgIllegal110 | .cgIllegal111 => bare
  | .frNop | .frStep | .frEval => bare
  | .frIllegal010 | .frIllegal011 | .frIllegal101 | .frIllegal110 | .frIllegal111 => bare

/-- One row of the machine-readable table, R61: a word `w` selects it when `w AND mask = pattern`. -/
structure TableRow where
  mnemonic : String
  module : ModuleType
  pattern : CommandWord
  mask : CommandWord
  deriving DecidableEq, Repr

/-- The `LFSR` rows of spec/opcode_table.json. -/
def lfsrRows : List TableRow :=
  [⟨"LFSR.RESET", .lfsr, 0b1000, 0b1000⟩, ⟨"LFSR.NOP", .lfsr, 0, 0b1111⟩, ⟨"LFSR.STEP", .lfsr, 1, 0b1111⟩,
    ⟨"LFSR.LOAD", .lfsr, 2, 0b1111⟩, ⟨"LFSR.LOAD_RANDOM", .lfsr, 3, 0b1111⟩, ⟨"LFSR.EVAL", .lfsr, 4, 0b1111⟩,
    ⟨"LFSR.ILLEGAL_101", .lfsr, 5, 0b1111⟩, ⟨"LFSR.ILLEGAL_110", .lfsr, 6, 0b1111⟩,
    ⟨"LFSR.ILLEGAL_111", .lfsr, 7, 0b1111⟩]

/-- The `CG` rows of spec/opcode_table.json. -/
def cgRows : List TableRow :=
  [⟨"CG.RESET", .cg, 0b1000, 0b1000⟩, ⟨"CG.NOP", .cg, 0, 0b1111⟩, ⟨"CG.STEP", .cg, 1, 0b1111⟩,
    ⟨"CG.SET_STATE", .cg, 2, 0b1111⟩, ⟨"CG.EVAL", .cg, 4, 0b1111⟩, ⟨"CG.ILLEGAL_011", .cg, 3, 0b1111⟩,
    ⟨"CG.ILLEGAL_101", .cg, 5, 0b1111⟩, ⟨"CG.ILLEGAL_110", .cg, 6, 0b1111⟩, ⟨"CG.ILLEGAL_111", .cg, 7, 0b1111⟩]

/-- The `FR` rows of spec/opcode_table.json. -/
def frRows : List TableRow :=
  [⟨"FR.RESET", .fr, 0b1000, 0b1000⟩, ⟨"FR.NOP", .fr, 0, 0b1111⟩, ⟨"FR.STEP", .fr, 1, 0b1111⟩,
    ⟨"FR.EVAL", .fr, 4, 0b1111⟩, ⟨"FR.ILLEGAL_010", .fr, 2, 0b1111⟩, ⟨"FR.ILLEGAL_011", .fr, 3, 0b1111⟩,
    ⟨"FR.ILLEGAL_101", .fr, 5, 0b1111⟩, ⟨"FR.ILLEGAL_110", .fr, 6, 0b1111⟩, ⟨"FR.ILLEGAL_111", .fr, 7, 0b1111⟩]

/-- All 28 rows, R61; the `NLF` row has mask 0 because `NLF` evaluates in every cycle. -/
def tableRows : List TableRow :=
  lfsrRows ++ [⟨"NLF.EVAL", .nlf, 0, 0⟩] ++ cgRows ++ frRows

/-- The rows of a module type that a word selects, R61. -/
def selectedRows (m : ModuleType) (w : CommandWord) : List TableRow :=
  tableRows.filter fun r => decide (r.module = m ∧ w &&& r.mask = r.pattern)

/-- The mnemonic of the command's row, as spec/opcode_table.json spells it. -/
def Instr.mnemonic : Instr → String
  | .lfsrReset _ => "LFSR.RESET"
  | .lfsrNop => "LFSR.NOP"
  | .lfsrStep => "LFSR.STEP"
  | .lfsrLoad _ => "LFSR.LOAD"
  | .lfsrLoadRandom _ => "LFSR.LOAD_RANDOM"
  | .lfsrEval => "LFSR.EVAL"
  | .lfsrIllegal101 => "LFSR.ILLEGAL_101"
  | .lfsrIllegal110 => "LFSR.ILLEGAL_110"
  | .lfsrIllegal111 => "LFSR.ILLEGAL_111"
  | .nlfEval _ => "NLF.EVAL"
  | .cgReset _ => "CG.RESET"
  | .cgNop => "CG.NOP"
  | .cgStep => "CG.STEP"
  | .cgSetState _ _ _ => "CG.SET_STATE"
  | .cgEval => "CG.EVAL"
  | .cgIllegal011 => "CG.ILLEGAL_011"
  | .cgIllegal101 => "CG.ILLEGAL_101"
  | .cgIllegal110 => "CG.ILLEGAL_110"
  | .cgIllegal111 => "CG.ILLEGAL_111"
  | .frReset _ _ => "FR.RESET"
  | .frNop => "FR.NOP"
  | .frStep => "FR.STEP"
  | .frEval => "FR.EVAL"
  | .frIllegal010 => "FR.ILLEGAL_010"
  | .frIllegal011 => "FR.ILLEGAL_011"
  | .frIllegal101 => "FR.ILLEGAL_101"
  | .frIllegal110 => "FR.ILLEGAL_110"
  | .frIllegal111 => "FR.ILLEGAL_111"

/-- The drive of a table word (log entry 8). A command word is 4 bits, the same in every module type, so the number
alone does not say which instance takes it: it is given to the `LFSR`, the first module type of R1. A row of no bits
is the one row with no command word, `NLF.EVAL`. Data ports are 0, and bits above bit 3 meet no wire. -/
def tableDrive (nbits w : Nat) : PortDrive :=
  if nbits = 0 then { target := .nlf, cmd := 0 } else { target := .lfsr, cmd := BitVec.ofNat 4 w }

/-- The command the decoder reads from a table word. -/
def decodeTableWord (nbits w : Nat) : Option Instr := some (decode (tableDrive nbits w))

end Sys2Proof
end

