-- ==== Sys2Proof/Machine/State.lean ====
section
/-! DEFINITION. The state of the machine: one instance of each module type, with its configuration record and its
registers (10_state.md R15 to R25), the driver's program (30_encoding.md R58), the run's observation (70 R126), and the
reasons a step can stop (60_exceptions.md R98). -/

namespace Sys2Proof.Machine

/-- What the model does where the hardware's behaviour rests on nothing the spec fixes (log entry 2). `model`: the
spec's model, which faults with `IllegalCommand` or `Uninitialized` (R101, R102). `hardware`: the spec's hardware,
which raises nothing (90_conflicts.md C3): it runs on the unspecified value a register holds (R25, R102), and a reserved
command leaves implementation-defined contents (R56, I1). Nothing changes it during a run. -/
inductive View where
  | model | hardware
  deriving DecidableEq, Repr

/-- `res_v_o` and `res_o` as sampled in one cycle, R53. -/
structure ResPort where
  valid : Bool
  bit : Bool
  deriving DecidableEq, Repr

/-- An `LFSR` instance: configuration (R15), state register (R21), initialized marker (R25), and whether its first reset
has happened (R102, R115, R117; log entry 17). -/
structure Lfsr where
  cfg : LfsrConfig
  S : BitVec cfg.N
  init : Bool
  wasReset : Bool
  deriving DecidableEq, Repr

/-- An `NLF` instance: configuration only, it has no state (R23, R29). -/
structure Nlf where
  cfg : NlfConfig
  deriving DecidableEq, Repr

/-- A `CG` instance: configuration, the state registers of its three `LFSR`s, one initialized marker (R22, R25), and
whether its first reset has happened (R102, R115, R117; log entry 17). -/
structure Cg where
  cfg : CgConfig
  S0 : BitVec cfg.N
  S1 : BitVec cfg.N
  S2 : BitVec cfg.N
  init : Bool
  wasReset : Bool
  deriving DecidableEq, Repr

/-- An `FR` instance: configuration, the state register of its `LFSR`, initialized marker (R23, R25). Nothing but its
reset sets the marker, so the marker itself says whether the first reset has happened (R115). -/
structure Fr where
  cfg : FrConfig
  S : BitVec cfg.N
  init : Bool
  deriving DecidableEq, Repr

/-- The machine: one instance of each module type (R1, R26; log entry 5), the driver's command list and index (R58), the
bits observed so far in order, each with the module type that returned it (R126), the result port in the last cycle
(R53), the view, and the number of free values used (log entry 3). -/
structure State where
  lfsr : Lfsr
  nlf : Nlf
  cg : Cg
  fr : Fr
  program : List PortDrive
  pc : Nat
  results : List (ModuleType × Bool)
  res : ResPort
  view : View
  drawn : Nat
  deriving DecidableEq, Repr

/-- The two commands that read a register, R25. -/
inductive ReadCommand where
  | step | eval
  deriving DecidableEq, Repr

/-- The model faults, with the information R98 records. Each is raised before anything is written (R107). -/
inductive Fault where
  /-- Code 5, R101: raised by a reserved op in the model's view. Safe: it refuses runs the hardware may complete. -/
  | illegalCommand (m : ModuleType) (op : OpCode) (pc : Nat)
  /-- Code 6, R102: raised by `STEP` or `EVAL` while `init` is false in the model's view. Safe: it refuses runs the
  hardware completes. -/
  | uninitialized (m : ModuleType) (c : ReadCommand) (pc : Nat)
  deriving DecidableEq, Repr

/-- What `InvalidLength` records, R98: the register length of an elaboration, or the operand of a command with its
port and program index (R105). -/
inductive LengthError where
  | register (n : Int)
  | operand (port : DataPort) (v : Operand) (pc : Nat)
  deriving DecidableEq, Repr

/-- A tap set as it is given to elaboration: a mask, or a list of positions (R17). -/
inductive TapSpec where
  | mask (t : Nat)
  | positions (l : List Int)
  deriving DecidableEq, Repr

/-- The refusals: the configuration or the command does not exist (R105). -/
inductive Refusal where
  /-- An instruction with no meaning yet. No arm of exec answers it. Safe. -/
  | notModelled (mnemonic : String)
  /-- Code 1, R99: raised by elaboration with `N < 1`, and by `LFSR.LOAD`, `LFSR.LOAD_RANDOM`, `CG.SET_STATE`, `FR.RESET`
  and `NLF.EVAL` with an operand that does not denote exactly `N` bits. Safe: no such command exists in hardware. -/
  | invalidLength (e : LengthError)
  /-- Code 2, R103: raised by elaboration; the register number (0, 1, 2 for `CG`, R98; 0 for `LFSR` and `FR`, log entry 19)
  and the tap set. Safe: no such configuration exists. -/
  | invalidTapSet (register : Nat) (taps : TapSpec)
  /-- Code 3, R100: raised by elaboration; the monomial's index and the position. Safe: no such configuration exists. -/
  | invalidMonomial (j : Nat) (position : Int)
  /-- Code 4, R104: raised by elaboration; the list. Safe: no such configuration exists. -/
  | invalidTruthTable (tt : List Int)
  deriving DecidableEq, Repr

/-- A step's outcome. -/
abbrev Result := Host.Outcome State Fault Refusal

/-- The machine right after a reset of every instance (R33), no command presented yet. `LFSR` and `CG` are not
initialized; `FR` holds the draw of its reset cycle. The configurations are those of 95_test_vectors.md (P1, L2-CG-1,
L2-FR-1) and the draw is that of R113's example (log entry 4); the registers R33 leaves unspecified are named 0 (log
entry 6). The program is empty: a program is loaded from outside (log entry 7). -/
def State.reset : State where
  lfsr := { cfg := { N := 4, T := 0b1011, F := [0b0101] }, S := 0, init := false, wasReset := true }
  nlf := { cfg := { N := 4, F := [0b0011, 0b0100, 0b1011] } }
  cg := { cfg := { N := 4, T0 := 0b0011, T1 := 0b1001, T2 := 0b1011, TT := 0xC5 },
          S0 := 0, S1 := 0, S2 := 0, init := false, wasReset := true }
  fr := { cfg := { N := 4, T := 0b0011, F := [0b0011, 0b0100, 0b1011] }, S := 0b1001, init := true }
  program := []
  pc := 0
  results := []
  res := { valid := false, bit := false }
  view := .model
  drawn := 0

end Sys2Proof.Machine
end

