-- ==== Sys2Proof/Machine/Flags.lean ====
section
/-! DEFINITION. The core has no flags and no condition codes (10_state.md R32). What a command shows beside its state
change is the result port, a function of the command alone (30_encoding.md R53), given here. -/

namespace Sys2Proof.Machine

/-- `res_v_o = 0` and `res_o = 0`: every cycle but that of a `STEP` or `EVAL`, R53. -/
def noResult : ResPort := { valid := false, bit := false }

/-- `res_v_o = 1` and `res_o` the returned bit: the cycle of a `STEP` or `EVAL`, R53. -/
def resultBit (b : Bool) : ResPort := { valid := true, bit := b }

end Sys2Proof.Machine
end

