-- ==== Sys2Proof/Machine/Operands.lean ====
section
/-! DEFINITION. How an operand, the draw on `rnd_i` among them, becomes the value on an `N`-bit port: 30_encoding.md R54,
R55, 20_memory.md R42, R45. -/

namespace Sys2Proof.Machine

/-- The number of a bit list written position 0 first: element `i` is bit `i`, R13, R55. -/
def bitsNumber : List Bool → Nat
  | [] => 0
  | b :: l => b.toNat + 2 * bitsNumber l

/-- The `N`-bit vector an operand denotes, R55: an integer `k` with `0 <= k < 2^N` gives bit `i` of `k`, a list of
length `N` gives its element `i`; anything else denotes none. -/
def operandVec (N : Nat) : Operand → Option (BitVec N)
  | .num k => if 0 ≤ k ∧ k < 2 ^ N then some (BitVec.ofNat N k.toNat) else none
  | .bits l => if l.length = N then some (BitVec.ofNat N (bitsNumber l)) else none

/-- Read a port in the command's cycle, or refuse the command with `InvalidLength`, R55, R99, R105. -/
def withOperand (s : State) (port : DataPort) (N : Nat) (v : Operand) (k : BitVec N → Result) : Result :=
  match operandVec N v with
  | some w => k w
  | none => .refused (.invalidLength (.operand port v s.pc))

end Sys2Proof.Machine
end

