-- ==== Sys2Proof/Machine/Ops.lean ====
section
/-! DEFINITION. The operations every meaning is written with: the step of a register (40_lfsr.md R64), the function of
an `NLF` (41_nlf.md R73), the index and entry of a combiner (42_combiner.md R83), the end of a command's cycle, the two
model faults (60_exceptions.md R101, R102) and the fetch of the driver's next command (30_encoding.md R58). -/

namespace Sys2Proof.Machine

/-- `XOR over i < n of f i`, 0 when `n = 0` (00_scope.md R14). -/
def xorBelow (f : Nat → Bool) : Nat → Bool
  | 0 => false
  | n + 1 => xorBelow f n ^^ f n

/-- `parity(v)`, the XOR of all bits of `v`, R14. -/
def parity {n : Nat} (v : BitVec n) : Bool := xorBelow v.getLsbD n

/-- The feedback bit: the XOR of the state bits at the tap positions, R64 (b). -/
def feedback {n : Nat} (T S : BitVec n) : Bool := parity (S &&& T)

/-- `STEPR(S, T) = {parity(S AND T), S[N-1:1]}`, in R64's numeric form `(S >> 1) OR (fb << (N-1))`. -/
def stepR {n : Nat} (T S : BitVec n) : BitVec n :=
  (S >>> 1) ||| ((BitVec.ofBool (feedback T S)).setWidth n <<< (n - 1))

/-- The output bit, position 0, R64 (a). -/
def outBit {n : Nat} (S : BitVec n) : Bool := S.getLsbD 0

/-- `m_j(x)`, the product of the monomial `M`: 1 exactly when `(x AND M) = M`, R73; 1 for `M = 0`, R76. -/
def monomial {n : Nat} (M x : BitVec n) : Bool := x &&& M == M

/-- `NLF_F(x)`, the XOR of the products of the list with repetition, R73, R74. -/
def nlfF {n : Nat} (F : List (BitVec n)) (x : BitVec n) : Bool :=
  match F with
  | [] => false
  | M :: rest => monomial M x ^^ nlfF rest x

/-- `idx = {o0, o1, o2}`, register 0 most significant, R83. -/
def cgIndex {n : Nat} (S0 S1 S2 : BitVec n) : BitVec 3 :=
  BitVec.ofBool (outBit S0) ++ BitVec.ofBool (outBit S1) ++ BitVec.ofBool (outBit S2)

/-- `TT[idx]`, R19. -/
def ttEntry (TT : BitVec 8) (idx : BitVec 3) : Bool := TT.getLsbD idx.toNat

/-- `res_o` of a `CG` `STEP` or `EVAL`: the entry at the index of the state held, R83, R84. -/
def cgBit (g : Cg) : Bool := ttEntry g.cfg.TT (cgIndex g.S0 g.S1 g.S2)

/-- The `LFSR` after its register stepped, R64. -/
def Lfsr.stepped (l : Lfsr) : Lfsr := { l with S := stepR l.cfg.T l.S }

/-- The `LFSR` after its register was given a value, R25, R65, R66. -/
def Lfsr.loaded (l : Lfsr) (v : BitVec l.cfg.N) : Lfsr := { l with S := v, init := true }

/-- The `LFSR` with an unspecified value in its register, the `k`-th free value (log entry 3). -/
def Lfsr.lost (l : Lfsr) (k : Nat) : Lfsr := { l with S := Config.unspecified l.cfg.N k }

/-- The markers of the `LFSR` after its reset: not initialized (R25, R113), and the first reset has happened (R115). -/
def Lfsr.marked (l : Lfsr) : Lfsr := { l with init := false, wasReset := true }

/-- The `LFSR` given `v` by a load. Once it was reset the register takes `v` (R65, R66). Before its first reset the command
rules do not hold yet and the contents stay unspecified, the `k`-th free value, with `init` as it was, that is false (R115,
R117; log entry 17). -/
def Lfsr.given (l : Lfsr) (k : Nat) (v : BitVec l.cfg.N) : Lfsr := if l.wasReset then l.loaded v else l.lost k

/-- The `CG` after its three registers stepped, each with its own tap mask, R83. -/
def Cg.stepped (g : Cg) : Cg :=
  { g with S0 := stepR g.cfg.T0 g.S0, S1 := stepR g.cfg.T1 g.S1, S2 := stepR g.cfg.T2 g.S2 }

/-- The `CG` after its three registers were given values together, R46, R82. -/
def Cg.loaded (g : Cg) (v0 v1 v2 : BitVec g.cfg.N) : Cg := { g with S0 := v0, S1 := v1, S2 := v2, init := true }

/-- The `CG` with unspecified values in its three registers, three free values from the `k`-th on (log entry 3). -/
def Cg.lost (g : Cg) (k : Nat) : Cg :=
  { g with
    S0 := Config.unspecified g.cfg.N k, S1 := Config.unspecified g.cfg.N (k + 1),
    S2 := Config.unspecified g.cfg.N (k + 2) }

/-- The markers of the `CG` after its reset: not initialized (R25, R113), and the first reset has happened (R115). -/
def Cg.marked (g : Cg) : Cg := { g with init := false, wasReset := true }

/-- The `CG` given three seeds. Once it was reset the registers take them (R82). Before its first reset the contents stay
unspecified, as for an `LFSR` (R115, R117; log entry 17). -/
def Cg.given (g : Cg) (k : Nat) (v0 v1 v2 : BitVec g.cfg.N) : Cg :=
  if g.wasReset then g.loaded v0 v1 v2 else g.lost k

/-- The `FR` after its register stepped, R92. -/
def Fr.stepped (f : Fr) : Fr := { f with S := stepR f.cfg.T f.S }

/-- The `FR` after its register was given a value, R113. -/
def Fr.loaded (f : Fr) (v : BitVec f.cfg.N) : Fr := { f with S := v, init := true }

/-- The `FR` with an unspecified value in its register, the `k`-th free value (log entry 3). -/
def Fr.lost (f : Fr) (k : Nat) : Fr := { f with S := Config.unspecified f.cfg.N k }

/-- Replace the `LFSR` instance. -/
def State.setLfsr (s : State) (l : Lfsr) : State := { s with lfsr := l }

/-- Replace the `CG` instance. -/
def State.setCg (s : State) (g : Cg) : State := { s with cg := g }

/-- Replace the `FR` instance. -/
def State.setFr (s : State) (f : Fr) : State := { s with fr := f }

/-- Count `n` more free values as used (log entry 3). -/
def State.draw (s : State) (n : Nat) : State := { s with drawn := s.drawn + n }

/-- Leave an unspecified value in the `LFSR` register. -/
def State.loseLfsr (s : State) : State := (s.setLfsr (s.lfsr.lost s.drawn)).draw 1

/-- Leave unspecified values in the three `CG` registers. -/
def State.loseCg (s : State) : State := (s.setCg (s.cg.lost s.drawn)).draw 3

/-- Leave an unspecified value in the `FR` register. -/
def State.loseFr (s : State) : State := (s.setFr (s.fr.lost s.drawn)).draw 1

/-- Load `v` into the `LFSR`; a load before the first reset uses one free value (log entry 17). -/
def State.giveLfsr (s : State) (v : BitVec s.lfsr.cfg.N) : State :=
  (s.setLfsr (s.lfsr.given s.drawn v)).draw (if s.lfsr.wasReset then 0 else 1)

/-- Load the three registers of the `CG`; a load before the first reset uses three free values (log entry 17). -/
def State.giveCg (s : State) (v0 v1 v2 : BitVec s.cg.cfg.N) : State :=
  (s.setCg (s.cg.given s.drawn v0 v1 v2)).draw (if s.cg.wasReset then 0 else 3)

/-- End the cycle of a command that returns no result: the index advances by 1 (R58), the result port shows 0 (R53). -/
def State.retire (s : State) : State := { s with pc := s.pc + 1, res := noResult }

/-- End the cycle of a command of module type `m` that returns `b` (R53, R126). -/
def State.retireWith (s : State) (m : ModuleType) (b : Bool) : State :=
  { s with pc := s.pc + 1, results := s.results ++ [(m, b)], res := resultBit b }

/-- End a cycle in which `y_o` of the `NLF` is read as `b` (R29, log entry 12); no module drives its result port. -/
def State.retireReading (s : State) (b : Bool) : State :=
  { s with pc := s.pc + 1, results := s.results ++ [(.nlf, b)], res := noResult }

/-- A cycle in which the driver presents no work to any instance: `NOP` everywhere (R50, log entry 7). -/
def State.idle (s : State) : State := { s with res := noResult }

/-- A register may be read: it is initialized (R25), or the view is the hardware's, which reads what it holds (R102). -/
def State.canRead (s : State) (init : Bool) : Bool := init || decide (s.view = .hardware)

/-- The `init` check of `STEP` and `EVAL`: in the model's view an uninitialized register raises `Uninitialized`, and
nothing is written (R102, R107). -/
def reading (s : State) (m : ModuleType) (c : ReadCommand) (init : Bool) (k : Result) : Result :=
  if s.canRead init then k else .fault (.uninitialized m c s.pc)

/-- A reserved op: in the model's view `IllegalCommand`, nothing written (R101); in the hardware's view the contents
`after` it, with no result (R53, R56, 93_implementation_defined.md I1). -/
def illegal (s : State) (m : ModuleType) (op : OpCode) (after : State) : Result :=
  match s.view with
  | .model => .fault (.illegalCommand m op s.pc)
  | .hardware => .next after.retire

/-- The command at the program index, if the program has not ended (R58). -/
def State.fetch (s : State) : Option PortDrive := s.program[s.pc]?

/-- The program has ended (R58, R126). -/
def State.ended (s : State) : Bool := decide (s.program.length ≤ s.pc)

/-- The list with `p` at index `k`, filled up with `LFSR` `NOP` cycles where it is shorter. -/
def placeAt (p : PortDrive) : List PortDrive → Nat → List PortDrive
  | [], 0 => [p]
  | _ :: l, 0 => p :: l
  | [], k + 1 => { target := .lfsr, cmd := 0 } :: placeAt p [] k
  | q :: l, k + 1 => q :: placeAt p l k

/-- Present `p` as the driver's next command (log entries 7 and 8). -/
def State.present (s : State) (p : PortDrive) : State := { s with program := placeAt p s.program s.pc }

end Sys2Proof.Machine
end

