-- ==== Sys2Proof/Machine/Cg.lean ====
section
/-! DEFINITION. The commands of the `CG` module type: 42_combiner.md R81 to R84, its reset (70_reset_and_hazards.md
R113) and its reserved words (30_encoding.md R56). -/

namespace Sys2Proof.Machine

/-- `CG.RESET`, R113: the three registers are left unspecified and `init` is false; the op bits are ignored (R52). -/
def execCgReset (_op : OpCode) (s : State) : Result := .next ((s.setCg (s.cg.lost s.drawn).marked).draw 3).retire

/-- `CG.NOP`, R81. -/
def execCgNop (s : State) : Result := .next s.retire

/-- `CG.STEP`, R83: the three registers step in the same cycle; the result is the entry at their outputs from before. -/
def execCgStep (s : State) : Result :=
  reading s .cg .step s.cg.init (.next ((s.setCg s.cg.stepped).retireWith .cg (cgBit s.cg)))

/-- `CG.SET_STATE`, R82; the seeds are checked in the order `k0`, `k1`, `k2` (log entry 13);
before the first reset, log entry 17. -/
def execCgSetState (k0 k1 k2 : Operand) (s : State) : Result :=
  withOperand s .k0 s.cg.cfg.N k0 fun w0 =>
    withOperand s .k1 s.cg.cfg.N k1 fun w1 =>
      withOperand s .k2 s.cg.cfg.N k2 fun w2 => .next (s.giveCg w0 w1 w2).retire

/-- `CG.EVAL`, R84. -/
def execCgEval (s : State) : Result := reading s .cg .eval s.cg.init (.next (s.retireWith .cg (cgBit s.cg)))

/-- Reserved op `011` of `CG`, R56. -/
def execCgIllegal011 (s : State) : Result := illegal s .cg 0b011 s.loseCg

/-- Reserved op `101` of `CG`, R56. -/
def execCgIllegal101 (s : State) : Result := illegal s .cg 0b101 s.loseCg

/-- Reserved op `110` of `CG`, R56. -/
def execCgIllegal110 (s : State) : Result := illegal s .cg 0b110 s.loseCg

/-- Reserved op `111` of `CG`, R56. -/
def execCgIllegal111 (s : State) : Result := illegal s .cg 0b111 s.loseCg

end Sys2Proof.Machine
end

