-- ==== Sys2Proof/Machine/Fr.lean ====
section
/-! DEFINITION. The commands of the `FR` module type: 43_filtered.md R91 to R93, its reset (70_reset_and_hazards.md
R113) and its reserved words (30_encoding.md R56). -/

namespace Sys2Proof.Machine

/-- `FR.RESET`, R113: the register takes the value on `rnd_i` and `init` is true; the op bits are ignored (R52). The
draw is an operand of `N` bits (R54, R55; log entry 10). -/
def execFrReset (_op : OpCode) (rnd : Operand) (s : State) : Result :=
  withOperand s .rnd s.fr.cfg.N rnd fun w => .next (s.setFr (s.fr.loaded w)).retire

/-- `FR.NOP`, R91. -/
def execFrNop (s : State) : Result := .next s.retire

/-- `FR.STEP`, R92: the result is the filter of the state from before the step; the register's own bit is discarded. -/
def execFrStep (s : State) : Result :=
  reading s .fr .step s.fr.init
    (.next ((s.setFr s.fr.stepped).retireWith .fr (nlfF s.fr.cfg.F s.fr.S)))

/-- `FR.EVAL`, R93. -/
def execFrEval (s : State) : Result :=
  reading s .fr .eval s.fr.init (.next (s.retireWith .fr (nlfF s.fr.cfg.F s.fr.S)))

/-- Reserved op `010` of `FR`, R56. -/
def execFrIllegal010 (s : State) : Result := illegal s .fr 0b010 s.loseFr

/-- Reserved op `011` of `FR`, R56. -/
def execFrIllegal011 (s : State) : Result := illegal s .fr 0b011 s.loseFr

/-- Reserved op `101` of `FR`, R56. -/
def execFrIllegal101 (s : State) : Result := illegal s .fr 0b101 s.loseFr

/-- Reserved op `110` of `FR`, R56. -/
def execFrIllegal110 (s : State) : Result := illegal s .fr 0b110 s.loseFr

/-- Reserved op `111` of `FR`, R56. -/
def execFrIllegal111 (s : State) : Result := illegal s .fr 0b111 s.loseFr

end Sys2Proof.Machine
end

