-- ==== Sys2Proof/Machine/Lfsr.lean ====
section
/-! DEFINITION. The commands of the `LFSR` module type: 40_lfsr.md R63 to R67, its reset (70_reset_and_hazards.md R113)
and its reserved words (30_encoding.md R56). -/

namespace Sys2Proof.Machine

/-- `LFSR.RESET`, R113: the register is left unspecified and `init` is false; the op bits are ignored (R52). -/
def execLfsrReset (_op : OpCode) (s : State) : Result := .next ((s.setLfsr (s.lfsr.lost s.drawn).marked).draw 1).retire

/-- `LFSR.NOP`, R63. -/
def execLfsrNop (s : State) : Result := .next s.retire

/-- `LFSR.STEP`, R64: the result is the output bit from before the step. -/
def execLfsrStep (s : State) : Result :=
  reading s .lfsr .step s.lfsr.init
    (.next ((s.setLfsr s.lfsr.stepped).retireWith .lfsr (outBit s.lfsr.S)))

/-- `LFSR.LOAD`, R65; before the first reset, log entry 17. -/
def execLfsrLoad (v : Operand) (s : State) : Result :=
  withOperand s .d s.lfsr.cfg.N v fun w => .next (s.giveLfsr w).retire

/-- `LFSR.LOAD_RANDOM`, R66: the draw is an operand of `N` bits (R54, R55; log entry 10); before the first reset, log
entry 17. -/
def execLfsrLoadRandom (rnd : Operand) (s : State) : Result :=
  withOperand s .rnd s.lfsr.cfg.N rnd fun w => .next (s.giveLfsr w).retire

/-- `LFSR.EVAL`, R67. -/
def execLfsrEval (s : State) : Result :=
  reading s .lfsr .eval s.lfsr.init (.next (s.retireWith .lfsr (nlfF s.lfsr.cfg.F s.lfsr.S)))

/-- Reserved op `101` of `LFSR`, R56. -/
def execLfsrIllegal101 (s : State) : Result := illegal s .lfsr 0b101 s.loseLfsr

/-- Reserved op `110` of `LFSR`, R56. -/
def execLfsrIllegal110 (s : State) : Result := illegal s .lfsr 0b110 s.loseLfsr

/-- Reserved op `111` of `LFSR`, R56. -/
def execLfsrIllegal111 (s : State) : Result := illegal s .lfsr 0b111 s.loseLfsr

end Sys2Proof.Machine
end

