-- ==== Sys2Proof/Machine/Nlf.lean ====
section
/-! DEFINITION. The evaluation of an `NLF` instance, 41_nlf.md R73. -/

namespace Sys2Proof.Machine

/-- `NLF.EVAL`, R73: `y_o = NLF_F(x_i)` for the value `x` driven on `x_i`; no state is read or written (R78). -/
def execNlfEval (x : Operand) (s : State) : Result :=
  withOperand s .x s.nlf.cfg.N x fun w => .next (s.retireReading (nlfF s.nlf.cfg.F w))

end Sys2Proof.Machine
end

