-- ==== Sys2Proof/Machine/Dispatch.lean ====
section
/-! DEFINITION. One arm per command: its meaning. -/

namespace Sys2Proof.Machine
open Sys2Proof

def exec (i : Instr) (s : State) : Host.Outcome State Fault Refusal :=
  match i with
  | .lfsrReset op => Sys2Proof.Machine.execLfsrReset op s
  | .lfsrNop => Sys2Proof.Machine.execLfsrNop s
  | .lfsrStep => Sys2Proof.Machine.execLfsrStep s
  | .lfsrLoad v => Sys2Proof.Machine.execLfsrLoad v s
  | .lfsrLoadRandom rnd => Sys2Proof.Machine.execLfsrLoadRandom rnd s
  | .lfsrEval => Sys2Proof.Machine.execLfsrEval s
  | .lfsrIllegal101 => Sys2Proof.Machine.execLfsrIllegal101 s
  | .lfsrIllegal110 => Sys2Proof.Machine.execLfsrIllegal110 s
  | .lfsrIllegal111 => Sys2Proof.Machine.execLfsrIllegal111 s
  | .nlfEval x => Sys2Proof.Machine.execNlfEval x s
  | .cgReset op => Sys2Proof.Machine.execCgReset op s
  | .cgNop => Sys2Proof.Machine.execCgNop s
  | .cgStep => Sys2Proof.Machine.execCgStep s
  | .cgSetState k0 k1 k2 => Sys2Proof.Machine.execCgSetState k0 k1 k2 s
  | .cgEval => Sys2Proof.Machine.execCgEval s
  | .cgIllegal011 => Sys2Proof.Machine.execCgIllegal011 s
  | .cgIllegal101 => Sys2Proof.Machine.execCgIllegal101 s
  | .cgIllegal110 => Sys2Proof.Machine.execCgIllegal110 s
  | .cgIllegal111 => Sys2Proof.Machine.execCgIllegal111 s
  | .frReset op rnd => Sys2Proof.Machine.execFrReset op rnd s
  | .frNop => Sys2Proof.Machine.execFrNop s
  | .frStep => Sys2Proof.Machine.execFrStep s
  | .frEval => Sys2Proof.Machine.execFrEval s
  | .frIllegal010 => Sys2Proof.Machine.execFrIllegal010 s
  | .frIllegal011 => Sys2Proof.Machine.execFrIllegal011 s
  | .frIllegal101 => Sys2Proof.Machine.execFrIllegal101 s
  | .frIllegal110 => Sys2Proof.Machine.execFrIllegal110 s
  | .frIllegal111 => Sys2Proof.Machine.execFrIllegal111 s

end Sys2Proof.Machine
end

