-- ==== Sys2Proof/Machine/Step.lean ====
section
/-! DEFINITION. One cycle of the machine: the driver presents its next command and the addressed instance runs it
(10_state.md R24, 30_encoding.md R58). -/

namespace Sys2Proof.Machine

/-- One cycle. Past the end of the program the driver presents no work, which is `NOP` (R50, log entry 7). A program may
address several instances, where the spec's is one instance's (R58); then a fault or refusal of one instance's command
ends the step for all of them, where R105 stops that instance's run alone (DESIGN CHOICE, log entry 7). -/
def step (s : State) : Host.Outcome State Fault Refusal :=
  match s.fetch with
  | some p => exec (decode p) s
  | none => .next s.idle

/-- The state with a table word as the driver's next command (log entry 8); nothing but the program changes. -/
def State.withFetchWord (s : State) (nbits w : Nat) : State := s.present (tableDrive nbits w)

end Sys2Proof.Machine
end

