-- ==== Sys2Proof/Machine/Asm.lean ====
section
/-! DEFINITION. The assembler syntax of programs: 30_encoding.md R58 to R60. A line is a list of characters; it stands
for a list of commands, one for a command and its expansion for a pseudo-command. Braces and the double quote are named
by their character codes. -/

namespace Sys2Proof.Machine

/-- What one line says: a command, or a pseudo-command of R60. -/
inductive AsmLine where
  | command (i : Instr)
  | clock (m : ModuleType)
  | run (m : ModuleType) (n : Nat)
  | idle (m : ModuleType) (n : Nat)
  | initLoad (v : Operand)
  | initLoadRandom (rnd : Operand)
  | evaluateFunction (m : ModuleType)
  deriving DecidableEq, Repr

/-- `<m>.STEP`; `NLF` has no commands (R59). -/
def stepOf : ModuleType → Option Instr
  | .lfsr => some .lfsrStep
  | .nlf => none
  | .cg => some .cgStep
  | .fr => some .frStep

/-- `<m>.NOP`. -/
def nopOf : ModuleType → Option Instr
  | .lfsr => some .lfsrNop
  | .nlf => none
  | .cg => some .cgNop
  | .fr => some .frNop

/-- `<m>.EVAL`. -/
def evalOf : ModuleType → Option Instr
  | .lfsr => some .lfsrEval
  | .nlf => none
  | .cg => some .cgEval
  | .fr => some .frEval

/-- The commands a line stands for, R60. -/
def AsmLine.expand : AsmLine → Option (List Instr)
  | .command i => some [i]
  | .clock m => (stepOf m).map fun i => [i]
  | .run m n => (stepOf m).map fun i => List.replicate n i
  | .idle m n => (nopOf m).map fun i => List.replicate n i
  | .initLoad v => some [.lfsrLoad v]
  | .initLoadRandom rnd => some [.lfsrLoadRandom rnd]
  | .evaluateFunction m => (evalOf m).map fun i => [i]

/-- The opening brace. -/
def openBrace : Char := Char.ofNat 123

/-- The closing brace. -/
def closeBrace : Char := Char.ofNat 125

/-- The double quote. -/
def quoteMark : Char := Char.ofNat 34

/-- Drop spaces at both ends. -/
def trim (l : List Char) : List Char :=
  ((l.dropWhile (· == ' ')).reverse.dropWhile (· == ' ')).reverse

/-- The value of a digit, lower or upper case. -/
def digitValue (c : Char) : Option Nat :=
  if '0' ≤ c ∧ c ≤ '9' then some (c.toNat - '0'.toNat)
  else if 'a' ≤ c ∧ c ≤ 'f' then some (c.toNat - 'a'.toNat + 10)
  else if 'A' ≤ c ∧ c ≤ 'F' then some (c.toNat - 'A'.toNat + 10)
  else none

/-- The digits after a number `acc` read so far, most significant first, R13. -/
def digitsFrom (base acc : Nat) : List Char → Option Nat
  | [] => some acc
  | c :: l =>
    match digitValue c with
    | some d => if d < base then digitsFrom base (base * acc + d) l else none
    | none => none

/-- A number in a base; at least one digit. -/
def parseDigits (base : Nat) (l : List Char) : Option Nat := if l.isEmpty then none else digitsFrom base 0 l

/-- A number, R59: `0x` hexadecimal, `0b` binary, or decimal. -/
def parseNumber : List Char → Option Nat
  | '0' :: 'x' :: l => parseDigits 16 l
  | '0' :: 'b' :: l => parseDigits 2 l
  | l => parseDigits 10 l

/-- The characters of a bit string up to its closing quote, R13. -/
def parseBits : List Char → Option (List Bool)
  | [] => none
  | c :: l =>
    if c == quoteMark then (if l.isEmpty then some [] else none)
    else if c == '0' then (parseBits l).map (false :: ·)
    else if c == '1' then (parseBits l).map (true :: ·)
    else none

/-- A value, R59: a number, or a bit string `s"..."` written position 0 first. -/
def parseValue : List Char → Option Operand
  | [] => none
  | 's' :: q :: l => if q == quoteMark then (parseBits l).map .bits else none
  | l => (parseNumber l).map fun k => .num k

/-- A draw, `rnd=v` in braces, R59; `v` keeps its spelling, so that its width is checked as any operand's is (R55). -/
def parseDraw (l : List Char) : Option Operand :=
  match l with
  | o :: 'r' :: 'n' :: 'd' :: '=' :: rest =>
    if o == openBrace && rest.getLast? == some closeBrace then parseValue rest.dropLast else none
  | _ => none

/-- Three values separated by commas, R59. -/
def parseSeeds (l : List Char) : Option (Operand × Operand × Operand) :=
  let a := l.takeWhile (· != ',')
  let l1 := (l.dropWhile (· != ',')).drop 1
  let b := l1.takeWhile (· != ',')
  let c := (l1.dropWhile (· != ',')).drop 1
  match parseValue (trim a), parseValue (trim b), parseValue (trim c) with
  | some x, some y, some z => some (x, y, z)
  | _, _, _ => none

/-- `<module>` of a line, R59. -/
def parseModule (l : List Char) : Option ModuleType :=
  if l == "LFSR".toList then some .lfsr
  else if l == "CG".toList then some .cg
  else if l == "FR".toList then some .fr
  else none

/-- The lines every module type has: `NOP`, `STEP`, `EVAL` (R51) and their pseudo-commands (R60). -/
def parseCommon (m : ModuleType) (op arg : List Char) : Option AsmLine :=
  if op == "NOP".toList && arg.isEmpty then (nopOf m).map .command
  else if op == "STEP".toList && arg.isEmpty then (stepOf m).map .command
  else if op == "EVAL".toList && arg.isEmpty then (evalOf m).map .command
  else if op == "CLOCK".toList && arg.isEmpty then some (.clock m)
  else if op == "EVALUATE_FUNCTION".toList && arg.isEmpty then some (.evaluateFunction m)
  else if op == "RUN".toList then (parseNumber arg).map (.run m)
  else if op == "IDLE".toList then (parseNumber arg).map (.idle m)
  else none

/-- The lines of one module type alone, R51, R59, R60; a reset assembles to the canonical word `1000` (R62). -/
def parseOwn (m : ModuleType) (op arg : List Char) : Option AsmLine :=
  match m with
  | .lfsr =>
    if op == "RESET".toList && arg.isEmpty then some (.command (.lfsrReset 0))
    else if op == "LOAD".toList then (parseValue arg).map fun v => .command (.lfsrLoad v)
    else if op == "LOAD_RANDOM".toList then (parseDraw arg).map fun r => .command (.lfsrLoadRandom r)
    else if op == "INITIALIZE".toList then (parseValue arg).map .initLoad
    else if op == "INITIALIZE_RANDOM".toList then (parseDraw arg).map .initLoadRandom
    else none
  | .nlf => none
  | .cg =>
    if op == "RESET".toList && arg.isEmpty then some (.command (.cgReset 0))
    else if op == "SET_STATE".toList then (parseSeeds arg).map fun k => .command (.cgSetState k.1 k.2.1 k.2.2)
    else none
  | .fr =>
    if op == "RESET".toList then (parseDraw arg).map fun r => .command (.frReset 0 r)
    else none

/-- One line, `<module>.<MNEMONIC> [operands] [; comment]`, R59. -/
def parseLine (line : List Char) : Option AsmLine :=
  let l := trim (line.takeWhile (· != ';'))
  let word := l.takeWhile (· != ' ')
  let arg := trim (l.dropWhile (· != ' '))
  let op := (word.dropWhile (· != '.')).drop 1
  match parseModule (word.takeWhile (· != '.')) with
  | some m => (parseOwn m op arg).or (parseCommon m op arg)
  | none => none

/-- The program of a list of lines: each line's commands in order, each on the ports as R54 says. -/
def assemble : List (List Char) → Option (List PortDrive)
  | [] => some []
  | line :: rest =>
    match (parseLine line).bind AsmLine.expand, assemble rest with
    | some is, some ps => some (is.map encode ++ ps)
    | _, _ => none

end Sys2Proof.Machine
end

