-- ==== Sys2Proof/Machine/Elaborate.lean ====
section
/-! DEFINITION. Elaboration: from the parameters an instance is given (10_state.md R15) to its configuration record, or
the refusal of the first check that fails (R16 to R19, 60_exceptions.md R99, R100, R103, R104, R106); the state at
power-on (70_reset_and_hazards.md R115); and the codes of R98. -/

namespace Sys2Proof.Machine

/-- The parameters of an `LFSR` or an `FR`, as given. -/
structure RegisterSpec where
  n : Int
  taps : TapSpec
  F : List (List Int)
  deriving DecidableEq, Repr

/-- The parameters of an `NLF`, as given. -/
structure NlfSpec where
  n : Int
  F : List (List Int)
  deriving DecidableEq, Repr

/-- The parameters of a `CG`, as given. -/
structure CgSpec where
  n : Int
  taps0 : TapSpec
  taps1 : TapSpec
  taps2 : TapSpec
  tt : List Int
  deriving DecidableEq, Repr

/-- The position is one of a register of length `N`. -/
def inRange (N : Nat) (p : Int) : Bool := decide (0 ≤ p) && decide (p < N)

/-- The mask with bit `p` set for each listed position `p`, R17, R18; a position listed twice sets its bit once. -/
def maskOf (N : Nat) (l : List Int) : BitVec N := l.foldr (fun p v => BitVec.twoPow N p.toNat ||| v) 0

/-- `N >= 1`, R16, R99. -/
def elabLength (n : Int) : Except Refusal Nat :=
  if n < 1 then .error (.invalidLength (.register n)) else .ok n.toNat

/-- The tap set is legal: every position in range, position 0 present, none listed twice, R17, R103; a mask, position 0
present and no bit past `N-1` (R17; log entry 16). -/
def legalTapSpec (N : Nat) : TapSpec → Bool
  | .mask t => decide (t < 2 ^ N) && t.testBit 0
  | .positions l => l.all (inRange N) && l.contains 0 && decide l.Nodup

/-- The tap mask of a tap set. -/
def tapMask (N : Nat) : TapSpec → BitVec N
  | .mask t => BitVec.ofNat N t
  | .positions l => maskOf N l

/-- The tap set of register `j`, checked, R103; the number recorded is R98's for a `CG`, and 0 for an `LFSR` or an `FR` (log
entry 19). -/
def elabTaps (N j : Nat) (t : TapSpec) : Except Refusal (BitVec N) :=
  if legalTapSpec N t then .ok (tapMask N t) else .error (.invalidTapSet j t)

/-- The monomials from index `j` on, in list order, R18, R100, R106; the position reported is the first one out of range in
its monomial (log entry 18). -/
def elabMonomials (N j : Nat) : List (List Int) → Except Refusal (List (BitVec N))
  | [] => .ok []
  | m :: rest =>
    match m.find? fun p => !inRange N p with
    | some p => .error (.invalidMonomial j p)
    | none => (elabMonomials N (j + 1) rest).map fun ms => maskOf N m :: ms

/-- The table is exactly 8 entries, each 0 or 1, R19, R104. -/
def legalTable (tt : List Int) : Bool := decide (tt.length = 8) && tt.all fun b => decide (b = 0) || decide (b = 1)

/-- List element `idx` becomes `TT[idx]`, R19. -/
def tableOf (tt : List Int) : BitVec 8 := BitVec.ofNat 8 (bitsNumber (tt.map fun b => decide (b = 1)))

/-- The truth table, checked, R104. -/
def elabTable (tt : List Int) : Except Refusal (BitVec 8) :=
  if legalTable tt then .ok (tableOf tt) else .error (.invalidTruthTable tt)

/-- Elaboration of an `LFSR`, in the order of R106. Its one register is recorded as number 0 where its tap set is refused;
R98 numbers the registers of a `CG` alone (DESIGN CHOICE, log entry 19). -/
def elabLfsr (r : RegisterSpec) : Except Refusal LfsrConfig := do
  let N ← elabLength r.n
  let T ← elabTaps N 0 r.taps
  let F ← elabMonomials N 0 r.F
  pure { N := N, T := T, F := F }

/-- Elaboration of an `NLF`, in the order of R106. -/
def elabNlf (r : NlfSpec) : Except Refusal NlfConfig := do
  let N ← elabLength r.n
  let F ← elabMonomials N 0 r.F
  pure { N := N, F := F }

/-- Elaboration of a `CG`, in the order of R106: length, tap sets of registers 0, 1, 2, truth table. -/
def elabCg (r : CgSpec) : Except Refusal CgConfig := do
  let N ← elabLength r.n
  let T0 ← elabTaps N 0 r.taps0
  let T1 ← elabTaps N 1 r.taps1
  let T2 ← elabTaps N 2 r.taps2
  let TT ← elabTable r.tt
  pure { N := N, T0 := T0, T1 := T1, T2 := T2, TT := TT }

/-- Elaboration of an `FR`, in the order of R106. Its one register is recorded as number 0 where its tap set is refused;
R98 numbers the registers of a `CG` alone (DESIGN CHOICE, log entry 19). -/
def elabFr (r : RegisterSpec) : Except Refusal FrConfig := do
  let N ← elabLength r.n
  let T ← elabTaps N 0 r.taps
  let F ← elabMonomials N 0 r.F
  pure { N := N, T := T, F := F }

/-- Power-on of elaborated instances, R115: every register unspecified (free values, log entry 3), `init` false for
every module type, `FR` included, and the first reset still due; the driver's program is `prog`, its index 0 (R58). -/
def powerOn (l : LfsrConfig) (n : NlfConfig) (c : CgConfig) (f : FrConfig) (view : View) (prog : List PortDrive) :
    State where
  lfsr := { cfg := l, S := Config.unspecified l.N 0, init := false, wasReset := false }
  nlf := { cfg := n }
  cg := { cfg := c, S0 := Config.unspecified c.N 1, S1 := Config.unspecified c.N 2, S2 := Config.unspecified c.N 3,
          init := false, wasReset := false }
  fr := { cfg := f, S := Config.unspecified f.N 4, init := false }
  program := prog
  pc := 0
  results := []
  res := noResult
  view := view
  drawn := 5

/-- The code of a model fault, R98. -/
def faultCode : Fault → Nat
  | .illegalCommand _ _ _ => 5
  | .uninitialized _ _ _ => 6

/-- The code of a refusal, R98; a refusal that is not the spec's has none. -/
def refusalCode : Refusal → Option Nat
  | .invalidLength _ => some 1
  | .invalidTapSet _ _ => some 2
  | .invalidMonomial _ _ => some 3
  | .invalidTruthTable _ => some 4
  | _ => none

end Sys2Proof.Machine
end

