-- ==== Sys2Proof/Machine/Outputs.lean ====
section
/-! DEFINITION. The outputs of the four module types, each a function of the state held in a cycle (10_state.md R24, R28
to R31). While `init` is false the model's view shows none of them (R25); the hardware's view shows what the register
holds. -/

namespace Sys2Proof.Machine

/-- An output of an instance, where it can be observed (R25). -/
def observable {α : Type} (s : State) (init : Bool) (v : α) : Option α := if s.canRead init then some v else none

/-- `LFSR` `state_o`, R28. -/
def lfsrStateO (s : State) : Option (BitVec s.lfsr.cfg.N) := observable s s.lfsr.init s.lfsr.S

/-- `LFSR` `out_o`, the bit the next `STEP` returns, R28. -/
def lfsrOutO (s : State) : Option Bool := observable s s.lfsr.init (outBit s.lfsr.S)

/-- `LFSR` `f_o`, the bit `EVAL` returns, R28. -/
def lfsrFO (s : State) : Option Bool := observable s s.lfsr.init (nlfF s.lfsr.cfg.F s.lfsr.S)

/-- `NLF` `y_o` for the input `x` on `x_i`, R29, R80. -/
def nlfYO (s : State) (x : BitVec s.nlf.cfg.N) : Bool := nlfF s.nlf.cfg.F x

/-- `CG` `state0_o`, R30. -/
def cgState0O (s : State) : Option (BitVec s.cg.cfg.N) := observable s s.cg.init s.cg.S0

/-- `CG` `state1_o`, R30. -/
def cgState1O (s : State) : Option (BitVec s.cg.cfg.N) := observable s s.cg.init s.cg.S1

/-- `CG` `state2_o`, R30. -/
def cgState2O (s : State) : Option (BitVec s.cg.cfg.N) := observable s s.cg.init s.cg.S2

/-- `CG` `idx_o`, R30. -/
def cgIdxO (s : State) : Option (BitVec 3) := observable s s.cg.init (cgIndex s.cg.S0 s.cg.S1 s.cg.S2)

/-- `CG` `ks_o`, the keystream bit the next `STEP` returns, R30. -/
def cgKsO (s : State) : Option Bool := observable s s.cg.init (cgBit s.cg)

/-- `FR` `state_o`, R31. -/
def frStateO (s : State) : Option (BitVec s.fr.cfg.N) := observable s s.fr.init s.fr.S

/-- `FR` `y_o`, the keystream bit the next `STEP` returns, R31. -/
def frYO (s : State) : Option Bool := observable s s.fr.init (nlfF s.fr.cfg.F s.fr.S)

end Sys2Proof.Machine
end

