-- ==== Sys2Proof/Safety.lean ====
section
/-! DEFINITION. What claims about runs are stated in: runs of commands, the state a run halts in
(60_exceptions.md R105, R107), its normal end and observation (70_reset_and_hazards.md R126), and the invariant of the
machine. -/

namespace Sys2Proof.Machine

/-- Run a list of commands in order, stopping at the first fault or refusal (R48, R58, R105). -/
def execAll : List Instr → State → Result
  | [], s => .next s
  | i :: is, s =>
    match exec i s with
    | .next t => execAll is t
    | .fault f => .fault f
    | .refused r => .refused r

/-- Why a run halted before its program's end, R105. -/
inductive StopReason where
  | fault (f : Fault)
  | refusal (r : Refusal)
  deriving DecidableEq, Repr

/-- The state a run of at most `k` steps is in, with what stopped it: the state after a stop is the state before the
stopping command (R107), and it stays so (R105). In a program that addresses several instances a fault or refusal of one
stops the later commands to the others too: the spec has one program per instance (R58) and stops that instance's run
(R105, R126), so this is the model's choice (DESIGN CHOICE, log entry 7). -/
def haltAfter : Nat → State → State × Option StopReason
  | 0, s => (s, none)
  | k + 1, s =>
    match step s with
    | .next t => haltAfter k t
    | .fault f => (s, some (.fault f))
    | .refused r => (s, some (.refusal r))

/-- The results of the commands of one module type, in order, R126. -/
def State.resultsOf (s : State) (m : ModuleType) : List Bool := (s.results.filter fun r => r.1 = m).map Prod.snd

/-- A run ends normally when its index reaches the program's length with no fault recorded, R126. -/
def endsNormally (h : State × Option StopReason) : Bool := h.1.ended && h.2.isNone

/-- The command leaves unspecified contents in a register, so that it uses free values (log entry 3): a reset of an `LFSR`
or a `CG` (R113), a reserved word (93_implementation_defined.md I1), and a load before the first reset (R115, log entry
17). -/
def State.usesFreeValues (s : State) : Instr → Bool
  | .lfsrReset _ | .cgReset _ => true
  | .lfsrLoad _ | .lfsrLoadRandom _ => !s.lfsr.wasReset
  | .cgSetState _ _ _ => !s.cg.wasReset
  | .lfsrIllegal101 | .lfsrIllegal110 | .lfsrIllegal111 => true
  | .cgIllegal011 | .cgIllegal101 | .cgIllegal110 | .cgIllegal111 => true
  | .frIllegal010 | .frIllegal011 | .frIllegal101 | .frIllegal110 | .frIllegal111 => true
  | .lfsrNop | .lfsrStep | .lfsrEval | .nlfEval _ | .cgNop | .cgStep | .cgEval => false
  | .frReset _ _ | .frNop | .frStep | .frEval => false

/-- The port drive presents a command that adds a bit to the observation. -/
def observes (p : PortDrive) : Bool := (decode p).observesBit

/-- Every configuration is one that elaboration accepts (R16, R17, R106). -/
abbrev State.Legal (s : State) : Prop :=
  s.lfsr.cfg.Legal ∧ s.nlf.cfg.Legal ∧ s.cg.cfg.Legal ∧ s.fr.cfg.Legal

/-- An instance not reset since power-on is not initialized (R115; for `FR` the marker itself says so). -/
abbrev State.Booted (s : State) : Prop :=
  (s.lfsr.init = true → s.lfsr.wasReset = true) ∧ (s.cg.init = true → s.cg.wasReset = true)

/-- The invariant of a run: the configurations are legal, an initialized instance was reset, the index is within the
program, and the results so far are one for each result-returning command before the index, in order, each from the module
type addressed (R58, R115, R126). -/
abbrev State.Inv (s : State) : Prop :=
  s.Legal ∧ s.Booted ∧ s.pc ≤ s.program.length ∧
    s.results.map Prod.fst = ((s.program.take s.pc).filter observes).map PortDrive.target

/-- A run of at most `k` steps is safe: nothing stops it. -/
def SafeRun (k : Nat) (s : State) : Prop := (haltAfter k s).2 = none

end Sys2Proof.Machine
end

