-- ==== Sys2Proof/Certificates/Slice0/Obligations.lean ====
section
/-! DEFINITION. The statements for the provers. Each is read from the rules of spec/ its docstring names; next states
are written out as records, so that everything not named in them is unchanged. -/

open Sys2Proof Sys2Proof.Machine

/-! ### Encoding -/

/-- 30_encoding.md R50, R51, R52: a command read back from the port drive that presents it is that command, with every
operand and with the ignored op bits of a reset; and the command a word decodes to keeps every bit of the word and
belongs to the module type addressed.
The encoding is the spec's decision D3, and that a reset ignores its op bits is D23. -/
def Obligations.DecodeAndEncodeAgree : Prop :=
  (∀ i : Instr, decode (encode i) = i) ∧
  (∀ p : PortDrive, (decode p).module = p.target ∧ (p.target ≠ .nlf → (encode (decode p)).cmd = p.cmd))

/-- R51 and R52, every cell of the op code table: with `C[3] = 1` a reset whatever `op` holds, else the command or the
reserved word of the column.
The spec's decisions D3, D16, D17, D23. -/
def Obligations.DecodeFollowsOpCodeTable : Prop :=
  (∀ p : PortDrive, p.target = .lfsr →
    (p.cmd.getLsbD 3 = true → decode p = .lfsrReset (p.cmd.extractLsb' 0 3)) ∧
    (p.cmd = 0b0000#4 → decode p = .lfsrNop) ∧ (p.cmd = 0b0001#4 → decode p = .lfsrStep) ∧
    (p.cmd = 0b0010#4 → decode p = .lfsrLoad p.d) ∧ (p.cmd = 0b0011#4 → decode p = .lfsrLoadRandom p.rnd) ∧
    (p.cmd = 0b0100#4 → decode p = .lfsrEval) ∧ (p.cmd = 0b0101#4 → decode p = .lfsrIllegal101) ∧
    (p.cmd = 0b0110#4 → decode p = .lfsrIllegal110) ∧ (p.cmd = 0b0111#4 → decode p = .lfsrIllegal111)) ∧
  (∀ p : PortDrive, p.target = .cg →
    (p.cmd.getLsbD 3 = true → decode p = .cgReset (p.cmd.extractLsb' 0 3)) ∧
    (p.cmd = 0b0000#4 → decode p = .cgNop) ∧ (p.cmd = 0b0001#4 → decode p = .cgStep) ∧
    (p.cmd = 0b0010#4 → decode p = .cgSetState p.k0 p.k1 p.k2) ∧ (p.cmd = 0b0011#4 → decode p = .cgIllegal011) ∧
    (p.cmd = 0b0100#4 → decode p = .cgEval) ∧ (p.cmd = 0b0101#4 → decode p = .cgIllegal101) ∧
    (p.cmd = 0b0110#4 → decode p = .cgIllegal110) ∧ (p.cmd = 0b0111#4 → decode p = .cgIllegal111)) ∧
  (∀ p : PortDrive, p.target = .fr →
    (p.cmd.getLsbD 3 = true → decode p = .frReset (p.cmd.extractLsb' 0 3) p.rnd) ∧
    (p.cmd = 0b0000#4 → decode p = .frNop) ∧ (p.cmd = 0b0001#4 → decode p = .frStep) ∧
    (p.cmd = 0b0010#4 → decode p = .frIllegal010) ∧ (p.cmd = 0b0011#4 → decode p = .frIllegal011) ∧
    (p.cmd = 0b0100#4 → decode p = .frEval) ∧ (p.cmd = 0b0101#4 → decode p = .frIllegal101) ∧
    (p.cmd = 0b0110#4 → decode p = .frIllegal110) ∧ (p.cmd = 0b0111#4 → decode p = .frIllegal111))

/-- R62, its encoding examples; for the resets, every word with `C[3] = 1`, the canonical `0b1000` among them.
Derived by the spec from R50, R51, R52, R56. -/
def Obligations.SpecEncodingExamplesDecode : Prop :=
  (decode { target := .lfsr, cmd := 0b0001 } = .lfsrStep ∧ Instr.lfsrStep.word = 0b0001) ∧
  (∀ k0 k1 k2 : Operand, decode { target := .cg, cmd := 0b0010, k0 := k0, k1 := k1, k2 := k2 } = .cgSetState k0 k1 k2 ∧
    encode (.cgSetState k0 k1 k2) = { target := .cg, cmd := 0b0010, k0 := k0, k1 := k1, k2 := k2 }) ∧
  (decode { target := .fr, cmd := 0b0100 } = .frEval ∧ Instr.frEval.word = 0b0100) ∧
  (∀ op : OpCode, decode { target := .lfsr, cmd := 1#1 ++ op } = .lfsrReset op ∧
    decode { target := .cg, cmd := 1#1 ++ op } = .cgReset op ∧
    ∀ r : Operand, decode { target := .fr, cmd := 1#1 ++ op, rnd := r } = .frReset op r) ∧
  ((Instr.lfsrReset 0).word = 0b1000 ∧ (Instr.cgReset 0).word = 0b1000 ∧ ∀ r : Operand, (Instr.frReset 0 r).word = 0b1000) ∧
  (∀ m : ModuleType, m ≠ .nlf → (decode { target := m, cmd := 0b0101 }).isIllegal = true) ∧
  (∀ v : Operand, decode { target := .lfsr, cmd := 0b0010, d := v } = .lfsrLoad v) ∧
  (decode { target := .fr, cmd := 0b0010 }).isIllegal = true

/-- R61: the rows' masks, and that within a module type exactly one row, that of the decoded command, selects a word.
The spec's decision D3. -/
def Obligations.TableRowsPartitionTheWords : Prop :=
  (∀ r ∈ tableRows, (r.mask = 0b1000 ∧ r.pattern = 0b1000) ∨ (r.mask = 0b1111 ∧ r.pattern.getLsbD 3 = false) ∨
    (r.mnemonic = "NLF.EVAL" ∧ r.mask = 0 ∧ r.pattern = 0)) ∧
  (∀ r ∈ tableRows, r.mask = 0b1000 ↔ r.mnemonic = "LFSR.RESET" ∨ r.mnemonic = "CG.RESET" ∨ r.mnemonic = "FR.RESET") ∧
  (∀ p : PortDrive, (selectedRows p.target p.cmd).map TableRow.mnemonic = [(decode p).mnemonic])

/-- R42, R55: an integer operand denotes the vector of its bits exactly in `[0, 2^N)`, a bit list the vector of its
elements exactly when its length is `N`; nothing else denotes a vector.
The spec's decision D12. -/
def Obligations.OperandsDenoteExactlyTheirBits : Prop :=
  (∀ (N : Nat) (k : Int) (v : BitVec N), operandVec N (.num k) = some v ↔ (v.toNat : Int) = k) ∧
  (∀ (N : Nat) (k : Int), operandVec N (.num k) = none ↔ ¬(0 ≤ k ∧ k < 2 ^ N)) ∧
  (∀ (N : Nat) (l : List Bool) (v : BitVec N), operandVec N (.bits l) = some v ↔
    l.length = N ∧ ∀ i : Nat, i < N → l[i]? = some (v.getLsbD i)) ∧
  (∀ (N : Nat) (l : List Bool), operandVec N (.bits l) = none ↔ l.length ≠ N)

/-! ### The step of the machine -/

/-- 10_state.md R24, 30_encoding.md R58: a step is the command at the program index; past the end (log entry 7) the
driver presents `NOP` and only the result port is driven to 0.
Programs and their index are the spec's decision D18. -/
def Obligations.StepRunsTheDecodedCommand : Prop :=
  (∀ (s : State) (p : PortDrive), s.program[s.pc]? = some p → step s = exec (decode p) s) ∧
  (∀ s : State, s.program.length ≤ s.pc → step s = .next { s with res := ⟨false, false⟩ })

/-- A table word placed where the driver takes its next command is the command that the next step runs, and placing it
changes the program alone (log entry 8). -/
def Obligations.PlacedTableWordIsTheNextCommand : Prop :=
  ∀ (s : State) (nbits w : Nat) (i : Instr), decodeTableWord nbits w = some i →
    step (s.withFetchWord nbits w) = exec i (s.withFetchWord nbits w) ∧
      ∃ prog, s.withFetchWord nbits w = { s with program := prog }

/-! ### `NOP` -/

/-- 40_lfsr.md R63, 42_combiner.md R81, 43_filtered.md R91: word `0000` is `NOP` in each module type; it holds all state
whatever `init` is and returns nothing, for any number of cycles.
The spec's decision D3. -/
def Obligations.NopHoldsAllState : Prop :=
  (∀ p : PortDrive, p.cmd = 0b0000#4 → (p.target = .lfsr → decode p = .lfsrNop) ∧ (p.target = .cg → decode p = .cgNop) ∧
    (p.target = .fr → decode p = .frNop)) ∧
  (∀ s : State, exec .lfsrNop s = .next { s with pc := s.pc + 1, res := ⟨false, false⟩ } ∧
    exec .cgNop s = .next { s with pc := s.pc + 1, res := ⟨false, false⟩ } ∧
    exec .frNop s = .next { s with pc := s.pc + 1, res := ⟨false, false⟩ }) ∧
  (∀ (is : List Instr) (s : State), (∀ i ∈ is, i = .lfsrNop ∨ i = .cgNop ∨ i = .frNop) →
    ∃ u, execAll is s = .next u ∧ u.lfsr = s.lfsr ∧ u.cg = s.cg ∧ u.fr = s.fr ∧ u.results = s.results)

/-! ### `LFSR` -/

/-- 40_lfsr.md R64: the word; the pseudocode (emit position 0, then shift in the parity of the tapped bits, everything
read from the state before); the fault of an instance not initialized, in the model's view, where the hardware steps
whatever the register holds; the corner cases (1) to (4); and the rule's example. -/
def Obligations.LfsrStepEmitsThenShifts : Prop :=
  (∀ p : PortDrive, p.target = .lfsr → p.cmd = 0b0001#4 → decode p = .lfsrStep) ∧
  (∀ s : State, (s.lfsr.init = true ∨ s.view = .hardware) →
    exec .lfsrStep s = .next { s with
      lfsr := { s.lfsr with
        S := (s.lfsr.S >>> 1) |||
          ((BitVec.ofBool (parity (s.lfsr.S &&& s.lfsr.cfg.T))).setWidth _ <<< (s.lfsr.cfg.N - 1)) },
      pc := s.pc + 1,
      results := s.results ++ [(.lfsr, s.lfsr.S.getLsbD 0)],
      res := ⟨true, s.lfsr.S.getLsbD 0⟩ }) ∧
  (∀ s : State, s.lfsr.init = false → s.view = .model → exec .lfsrStep s = .fault (.uninitialized .lfsr .step s.pc)) ∧
  (∀ T S : BitVec 1, LegalTaps T → T = 1#1 ∧ stepR T S = S) ∧
  (∀ (n : Nat) (T : BitVec n), outBit 0#n = false ∧ stepR T 0#n = 0#n) ∧
  (∀ (n : Nat) (S : BitVec n), 1 < n →
    (∀ i : Nat, i < n → (stepR 1#n S).getLsbD i = S.getLsbD ((i + 1) % n)) ∧ (stepR 1#n)^[n] S = S) ∧
  (∀ (n : Nat) (T : BitVec n), feedback T (BitVec.allOnes n) = parity T ∧
    (parity T = true → stepR T (BitVec.allOnes n) = BitVec.allOnes n)) ∧
  (outBit 0b0110#4 = false ∧ feedback 0b1011#4 0b0110#4 = true ∧ stepR 0b1011#4 0b0110#4 = 0b1011#4)

/-- 20_memory.md R44, 40_lfsr.md R64 (c), (d): position `i+1` moves to position `i` and the feedback bit, the XOR of the
bits at the tap positions, enters at position `N-1`; in numbers, a logical right shift with the feedback bit on top.
R44 is derived by the spec from R42 and R64. -/
def Obligations.StepMovesPositionsTowardZero : Prop :=
  ∀ (n : Nat) (T S : BitVec n), 1 ≤ n →
    (∀ i : Nat, i + 1 < n → (stepR T S).getLsbD i = S.getLsbD (i + 1)) ∧
    ((stepR T S).getLsbD (n - 1) = true ↔
      ((List.range n).filter fun i => T.getLsbD i && S.getLsbD i).length % 2 = 1) ∧
    (stepR T S).toNat = S.toNat / 2 + ((stepR T S).getLsbD (n - 1)).toNat * 2 ^ (n - 1)

/-- 40_lfsr.md R65, for an `LFSR` that was reset (70_reset_and_hazards.md R117; a load before that is in
InitializedMarkersFollowTheirRule): the word; the state is the operand's vector, initialized or not, and nothing is
returned; an operand that does not denote exactly `N` bits is refused with `InvalidLength`; the corner cases: zero is legal,
the next `STEP` steps the loaded value, the outputs show it from the next cycle on, two equal `LOAD`s equal one; and the
rule's example, `s"0110"` is the number 6. -/
def Obligations.LfsrLoadWritesItsOperand : Prop :=
  (∀ p : PortDrive, p.target = .lfsr → p.cmd = 0b0010#4 → decode p = .lfsrLoad p.d) ∧
  (∀ (s : State) (v : Operand) (w : BitVec s.lfsr.cfg.N), s.lfsr.wasReset = true → operandVec s.lfsr.cfg.N v = some w →
    exec (.lfsrLoad v) s = .next { s with
      lfsr := { s.lfsr with S := w, init := true }, pc := s.pc + 1, res := ⟨false, false⟩ } ∧
    (∀ t, exec (.lfsrLoad v) s = .next t →
      (lfsrStateO t).map BitVec.toNat = some w.toNat ∧ lfsrOutO t = some (w.getLsbD 0)) ∧
    (∃ u, execAll [.lfsrLoad v, .lfsrStep] s = .next u ∧
      u.lfsr = { s.lfsr with S := stepR s.lfsr.cfg.T w, init := true }) ∧
    (∃ u, execAll [.lfsrLoad v, .lfsrLoad v] s = .next u ∧ u.lfsr = { s.lfsr with S := w, init := true })) ∧
  (∀ (s : State) (v : Operand), v.fits s.lfsr.cfg.N = false →
    exec (.lfsrLoad v) s = .refused (.invalidLength (.operand .d v s.pc))) ∧
  (∀ N : Nat, operandVec N (.num 0) = some 0#N) ∧
  operandVec 4 (.bits [false, true, true, false]) = some 6#4

/-- R66: `LOAD_RANDOM` writes the draw, for every draw of `N` bits, once the instance was reset; before that it completes and
leaves the register at a value the statement does not limit (R115, R117; log entry 17).
The draw is the spec's decision D8; its spelling is log entry 10. -/
def Obligations.LfsrLoadRandomWritesTheDraw : Prop :=
  ∀ (s : State) (rnd : Operand) (w : BitVec s.lfsr.cfg.N), operandVec s.lfsr.cfg.N rnd = some w →
    (s.lfsr.wasReset = true → exec (.lfsrLoadRandom rnd) s = .next { s with
      lfsr := { s.lfsr with S := w, init := true }, pc := s.pc + 1, res := ⟨false, false⟩ }) ∧
    (s.lfsr.wasReset = false → ∃ (v : BitVec s.lfsr.cfg.N) (d : Nat), exec (.lfsrLoadRandom rnd) s = .next { s with
      lfsr := { s.lfsr with S := v }, pc := s.pc + 1, res := ⟨false, false⟩, drawn := d })

/-- R67: `EVAL` returns the function of the state held and changes no register.
The spec's decision D16; the hardware's view is D7 and log entry 2. -/
def Obligations.LfsrEvalReturnsTheFunction : Prop :=
  ∀ s : State, (s.lfsr.init = true ∨ s.view = .hardware) →
    exec .lfsrEval s = .next { s with
      pc := s.pc + 1,
      results := s.results ++ [(.lfsr, nlfF s.lfsr.cfg.F s.lfsr.S)],
      res := ⟨true, nlfF s.lfsr.cfg.F s.lfsr.S⟩ }

/-- 70_reset_and_hazards.md R113 for `LFSR`: `init` is false, the register holds some value the statement does not
limit (log entry 3), nothing else changes but the index, the result port and the model's mark that the instance was reset
(log entry 17).
The spec's decision D6. -/
def Obligations.LfsrResetLeavesStateUnspecified : Prop :=
  ∀ (s : State) (op : OpCode), ∃ (v : BitVec s.lfsr.cfg.N) (d : Nat),
    exec (.lfsrReset op) s = .next { s with
      lfsr := { s.lfsr with S := v, init := false, wasReset := true }, pc := s.pc + 1, res := ⟨false, false⟩, drawn := d }

/-! ### `NLF` -/

/-- 41_nlf.md R73: the evaluation of the value driven on `x_i`; no register changes. That reading `y_o` is one cycle of
the driver is the model's choice (log entry 12). -/
def Obligations.NlfEvalReturnsTheFunction : Prop :=
  ∀ (s : State) (x : Operand) (w : BitVec s.nlf.cfg.N), operandVec s.nlf.cfg.N x = some w →
    exec (.nlfEval x) s = .next { s with
      pc := s.pc + 1, results := s.results ++ [(.nlf, nlfF s.nlf.cfg.F w)], res := ⟨false, false⟩ }

/-- 41_nlf.md R74, with R73's product, and R75: where every listed monomial has a position, the value is 1 exactly when an odd
number of them, counted with repetition, have all their positions at 1; a monomial listed twice contributes nothing; the
empty list is the constant 0. A monomial with no positions is in EmptyMonomialIsOne. -/
def Obligations.FunctionIsTheXorOfItsMonomials : Prop :=
  ∀ (n : Nat) (F : List (BitVec n)) (x : BitVec n),
    ((∀ M ∈ F, M ≠ 0#n) → (nlfF F x = true ↔
      (F.countP fun M => decide (∀ i : Nat, i < n → M.getLsbD i = true → x.getLsbD i = true)) % 2 = 1)) ∧
    (∀ M : BitVec n, nlfF (M :: M :: F) x = nlfF F x) ∧ nlfF [] x = false

/-- 41_nlf.md R76, the spec's own decision D9 (log entry 9): a monomial with no positions contributes the constant 1, so
the function of one empty monomial is the constant 1, and beside others it negates; the count of R74 takes it as satisfied;
and at the input 0 the value is the parity of the number of empty monomials (43_filtered.md R92 corner case (3), derived by
the spec from R73 and R76). -/
def Obligations.EmptyMonomialIsOne : Prop :=
  ∀ (n : Nat) (F : List (BitVec n)) (x : BitVec n),
    maskOf n [] = 0#n ∧ monomial (0#n) x = true ∧ nlfF (0#n :: F) x = !nlfF F x ∧ nlfF [0#n] x = true ∧
    (nlfF F x = true ↔
      (F.countP fun M => decide (∀ i : Nat, i < n → M.getLsbD i = true → x.getLsbD i = true)) % 2 = 1) ∧
    (nlfF F 0#n = true ↔ (F.countP fun M => M == 0#n) % 2 = 1)

/-- R77: the value is the same under a permutation of the monomials, and a monomial's mask depends only on which
positions are listed, not on their order or repetition.
Derived by the spec from R73. -/
def Obligations.FunctionIgnoresOrderAndRepetition : Prop :=
  (∀ (n : Nat) (F G : List (BitVec n)) (x : BitVec n), F.Perm G → nlfF F x = nlfF G x) ∧
  (∀ (N : Nat) (l l' : List Int), (∀ p : Int, p ∈ l ↔ p ∈ l') → maskOf N l = maskOf N l')

/-- R79: a function of monomials of degree 1 is the XOR of the chosen bits, and that of position 0 is the output bit.
Derived by the spec from R73. -/
def Obligations.DegreeOneFunctionsAreLinear : Prop :=
  (∀ (n : Nat) (is : List Nat) (x : BitVec n), (∀ i ∈ is, i < n) →
    (nlfF (is.map fun i => BitVec.twoPow n i) x = true ↔ (is.filter fun i => x.getLsbD i).length % 2 = 1)) ∧
  (∀ (n : Nat) (x : BitVec n), 1 ≤ n → nlfF [BitVec.twoPow n 0] x = outBit x)

/-! ### `CG` -/

/-- 42_combiner.md R82, for a `CG` that was reset (70_reset_and_hazards.md R117; a load before that is in
InitializedMarkersFollowTheirRule): the word with its three data ports; the three registers are written together,
initialized or not, and nothing is returned; a seed that does not denote exactly `N` bits is refused with `InvalidLength`; a seed of 0
is legal and locks its register up; and the rule's example. -/
def Obligations.CgSetStateWritesAllThree : Prop :=
  (∀ p : PortDrive, p.target = .cg → p.cmd = 0b0010#4 → decode p = .cgSetState p.k0 p.k1 p.k2) ∧
  (∀ (s : State) (k0 k1 k2 : Operand) (w0 w1 w2 : BitVec s.cg.cfg.N), s.cg.wasReset = true →
    operandVec s.cg.cfg.N k0 = some w0 → operandVec s.cg.cfg.N k1 = some w1 → operandVec s.cg.cfg.N k2 = some w2 →
    exec (.cgSetState k0 k1 k2) s = .next { s with
      cg := { s.cg with S0 := w0, S1 := w1, S2 := w2, init := true }, pc := s.pc + 1, res := ⟨false, false⟩ }) ∧
  (∀ (s : State) (k0 k1 k2 : Operand),
    (k0.fits s.cg.cfg.N = false ∨ k1.fits s.cg.cfg.N = false ∨ k2.fits s.cg.cfg.N = false) →
    ∃ e, exec (.cgSetState k0 k1 k2) s = .refused (.invalidLength e)) ∧
  (∀ (N : Nat) (T : BitVec N), operandVec N (.num 0) = some 0#N ∧ stepR T 0#N = 0#N ∧ outBit 0#N = false) ∧
  (operandVec 4 (.num 0b0001) = operandVec 4 (.bits [true, false, false, false]) ∧
    operandVec 4 (.num 0b0011) = operandVec 4 (.bits [true, true, false, false]) ∧
    operandVec 4 (.num 0b0110) = operandVec 4 (.bits [false, true, true, false]))

/-- 42_combiner.md R83: the word; the result is the table's entry at `4*o0 + 2*o1 + o2`, the outputs from before the step,
and each register steps with its own tap mask; the fault of an instance not initialized, in the model's view; the corner
cases (1), (3), (4); and the rule's example. The step of one not initialized in the hardware's view is in
UninitializedReadsByView. -/
def Obligations.CgStepReadsTableThenStepsAll : Prop :=
  (∀ p : PortDrive, p.target = .cg → p.cmd = 0b0001#4 → decode p = .cgStep) ∧
  (∀ s : State, s.cg.init = true →
    let b := s.cg.cfg.TT.getLsbD
      (4 * (s.cg.S0.getLsbD 0).toNat + 2 * (s.cg.S1.getLsbD 0).toNat + (s.cg.S2.getLsbD 0).toNat)
    exec .cgStep s = .next { s with
      cg := { s.cg with
        S0 := stepR s.cg.cfg.T0 s.cg.S0, S1 := stepR s.cg.cfg.T1 s.cg.S1, S2 := stepR s.cg.cfg.T2 s.cg.S2 },
      pc := s.pc + 1, results := s.results ++ [(.cg, b)], res := ⟨true, b⟩ }) ∧
  (∀ s : State, s.cg.init = false → s.view = .model → exec .cgStep s = .fault (.uninitialized .cg .step s.pc)) ∧
  (∀ (n : Nat) (S0 S1 S2 : BitVec n), (cgIndex S0 S1 S2).toNat ≤ 7 ∧
    ((cgIndex S0 S0 S0).toNat = 0 ∨ (cgIndex S0 S0 S0).toNat = 7)) ∧
  (∀ (n k : Nat) (T : BitVec n), outBit ((stepR T)^[k] 0#n) = false) ∧
  (∀ g : Cg, g = ⟨⟨4, 0b0011#4, 0b1001#4, 0b1011#4, 0xC5#8⟩, 0b0001#4, 0b0011#4, 0b0110#4, true, true⟩ →
    cgIndex g.S0 g.S1 g.S2 = 6#3 ∧ cgBit g = true ∧
      g.stepped = ⟨⟨4, 0b0011#4, 0b1001#4, 0b1011#4, 0xC5#8⟩, 0b1000#4, 0b1001#4, 0b1011#4, true, true⟩)

/-- R84: `EVAL` returns what the next `STEP` would and changes no register.
The spec's decision D16; the hardware's view is D7 and log entry 2. -/
def Obligations.CgEvalForetellsStep : Prop :=
  ∀ s : State, (s.cg.init = true ∨ s.view = .hardware) → ∃ b : Bool,
    exec .cgEval s = .next { s with pc := s.pc + 1, results := s.results ++ [(.cg, b)], res := ⟨true, b⟩ } ∧
    ∃ t, execAll [.cgEval, .cgStep] s = .next t ∧ t.results = s.results ++ [(.cg, b), (.cg, b)]

/-- R113 for `CG`: `init` is false and the three registers hold values the statement does not limit (log entry 3); the model
marks that the instance was reset (log entry 17).
The spec's decision D6. -/
def Obligations.CgResetLeavesStateUnspecified : Prop :=
  ∀ (s : State) (op : OpCode), ∃ (v0 v1 v2 : BitVec s.cg.cfg.N) (d : Nat),
    exec (.cgReset op) s = .next { s with
      cg := { s.cg with S0 := v0, S1 := v1, S2 := v2, init := false, wasReset := true },
      pc := s.pc + 1, res := ⟨false, false⟩, drawn := d }

/-- R85: the index is in `[0, 7]`, whatever the three output bits, and the keystream bit is the entry at it.
Derived by the spec from R83. -/
def Obligations.CgIndexIsInRange : Prop :=
  ∀ s : State, s.cg.init = true →
    (cgIndex s.cg.S0 s.cg.S1 s.cg.S2).toNat ≤ 7 ∧
    ∃ t, exec .cgStep s = .next t ∧
      t.results = s.results ++ [(.cg, s.cg.cfg.TT.getLsbD (cgIndex s.cg.S0 s.cg.S1 s.cg.S2).toNat)]

/-- R86: the keystream after `SET_STATE`, of an instance that was reset (R117), depends on the configuration and the seeds alone, and it repeats after the
least common multiple of any periods of the three registers.
Derived by the spec from R82 and R83. -/
def Obligations.CgKeystreamRestartsAndRepeats : Prop :=
  (∀ (s s' : State) (k0 k1 k2 : Operand) (n : Nat), s.cg.cfg = s'.cg.cfg →
    s.cg.wasReset = true → s'.cg.wasReset = true →
    k0.fits s.cg.cfg.N = true → k1.fits s.cg.cfg.N = true → k2.fits s.cg.cfg.N = true →
    ∃ (u u' : State) (bits : List (ModuleType × Bool)), bits.length = n ∧
      execAll (.cgSetState k0 k1 k2 :: List.replicate n .cgStep) s = .next u ∧
      execAll (.cgSetState k0 k1 k2 :: List.replicate n .cgStep) s' = .next u' ∧
      u.results = s.results ++ bits ∧ u'.results = s'.results ++ bits ∧ u.cg = u'.cg) ∧
  (∀ (s : State) (p0 p1 p2 : Nat), s.cg.init = true →
    (stepR s.cg.cfg.T0)^[p0] s.cg.S0 = s.cg.S0 → (stepR s.cg.cfg.T1)^[p1] s.cg.S1 = s.cg.S1 →
    (stepR s.cg.cfg.T2)^[p2] s.cg.S2 = s.cg.S2 →
    ∃ u, execAll (List.replicate (Nat.lcm p0 (Nat.lcm p1 p2)) .cgStep) s = .next u ∧ u.cg = s.cg)

/-- R88, for an instance that was reset (R117): with seeds 0 for registers 0 and 2 the keystream is `TT[0]` or `TT[2]` as register 1 outputs 0 or 1; for
`TT = 0xC5` it is all ones.
Derived by the spec from R83 and R68. -/
def Obligations.CgZeroSeeds : Prop :=
  ∀ (s : State) (k1 : Operand) (w1 : BitVec s.cg.cfg.N) (n : Nat), s.cg.wasReset = true →
    operandVec s.cg.cfg.N k1 = some w1 →
    ∃ u, execAll (.cgSetState (.num 0) k1 (.num 0) :: List.replicate n .cgStep) s = .next u ∧
      u.results = s.results ++ (List.range n).map (fun t =>
        (.cg, s.cg.cfg.TT.getLsbD (if outBit ((stepR s.cg.cfg.T1)^[t] w1) then 2 else 0))) ∧
      (s.cg.cfg.TT = 0xC5 → u.results = s.results ++ List.replicate n (.cg, true))

/-- R89: the constant tables, the tables of one register's output, and the XOR of the three.
Derived by the spec from R83. -/
def Obligations.CgSingleInputTables : Prop :=
  ∀ s : State, s.cg.init = true → ∃ (t : State) (b : Bool), exec .cgStep s = .next t ∧
    t.results = s.results ++ [(.cg, b)] ∧
    (s.cg.cfg.TT = 0x00 → b = false) ∧ (s.cg.cfg.TT = 0xFF → b = true) ∧
    (s.cg.cfg.TT = 0xF0 → b = outBit s.cg.S0) ∧ (s.cg.cfg.TT = 0xCC → b = outBit s.cg.S1) ∧
    (s.cg.cfg.TT = 0xAA → b = outBit s.cg.S2) ∧
    (s.cg.cfg.TT = 0x96 → b = (outBit s.cg.S0 ^^ outBit s.cg.S1 ^^ outBit s.cg.S2))

/-- R90, R83, for an instance that was reset (R117): after `SET_STATE` and `n` steps each register is where its own seed and tap mask alone take it, and the
keystream is the table at the three `LFSR` output sequences.
Derived by the spec from R83. -/
def Obligations.CgRegistersAreIndependent : Prop :=
  ∀ (s : State) (k0 k1 k2 : Operand) (w0 w1 w2 : BitVec s.cg.cfg.N) (n : Nat), s.cg.wasReset = true →
    operandVec s.cg.cfg.N k0 = some w0 → operandVec s.cg.cfg.N k1 = some w1 → operandVec s.cg.cfg.N k2 = some w2 →
    ∃ u, execAll (.cgSetState k0 k1 k2 :: List.replicate n .cgStep) s = .next u ∧
      u.cg = { s.cg with
        S0 := (stepR s.cg.cfg.T0)^[n] w0, S1 := (stepR s.cg.cfg.T1)^[n] w1, S2 := (stepR s.cg.cfg.T2)^[n] w2,
        init := true } ∧
      u.results = s.results ++ (List.range n).map (fun t =>
        (.cg, s.cg.cfg.TT.getLsbD (4 * (outBit ((stepR s.cg.cfg.T0)^[t] w0)).toNat +
          2 * (outBit ((stepR s.cg.cfg.T1)^[t] w1)).toNat + (outBit ((stepR s.cg.cfg.T2)^[t] w2)).toNat)))

/-! ### `FR` -/

/-- 43_filtered.md R92: the word; the filter of the state from before, then the register steps, its own output bit
discarded; the fault of an instance not initialized, in the model's view; the corner cases (1), (2), and of (3) that the zero
state stays, that no step reaches it from another state, and that the result is 0 where no monomial is empty; and the rule's
example. The value for empty monomials, which the spec derives from its decision D9, is in EmptyMonomialIsOne; the step of an
instance not initialized in the hardware's view is in UninitializedReadsByView. -/
def Obligations.FrStepFiltersThenSteps : Prop :=
  (∀ p : PortDrive, p.target = .fr → p.cmd = 0b0001#4 → decode p = .frStep) ∧
  (∀ s : State, s.fr.init = true →
    exec .frStep s = .next { s with
      fr := { s.fr with S := stepR s.fr.cfg.T s.fr.S },
      pc := s.pc + 1,
      results := s.results ++ [(.fr, nlfF s.fr.cfg.F s.fr.S)],
      res := ⟨true, nlfF s.fr.cfg.F s.fr.S⟩ }) ∧
  (∀ s : State, s.fr.init = false → s.view = .model → exec .frStep s = .fault (.uninitialized .fr .step s.pc)) ∧
  (∀ (n : Nat) (F : List (BitVec n)) (S T : BitVec n), nlfF [] S = false ∧
    (1 ≤ n → nlfF [maskOf n [0]] S = S.getLsbD 0) ∧ stepR T 0#n = 0#n ∧
    (LegalTaps T → S ≠ 0#n → stepR T S ≠ 0#n) ∧ ((∀ M ∈ F, M ≠ 0#n) → nlfF F 0#n = false)) ∧
  (nlfF [0b0011#4, 0b0100#4, 0b1011#4] 0b1001#4 = false ∧ stepR 0b0011#4 0b1001#4 = 0b1100#4)

/-- R93: `EVAL` returns the filter of the state held and changes no register.
The spec's decision D16; the hardware's view is D7 and log entry 2. -/
def Obligations.FrEvalReturnsTheFilter : Prop :=
  ∀ s : State, (s.fr.init = true ∨ s.view = .hardware) →
    exec .frEval s = .next { s with
      pc := s.pc + 1,
      results := s.results ++ [(.fr, nlfF s.fr.cfg.F s.fr.S)],
      res := ⟨true, nlfF s.fr.cfg.F s.fr.S⟩ }

/-- R113 for `FR`: the register takes the draw and `init` is true, in every state, with every op value, for every draw of `N`
bits.
The spec's decisions D6 and D8; the draw's spelling is log entry 10. -/
def Obligations.FrResetTakesTheDraw : Prop :=
  ∀ (s : State) (op : OpCode) (rnd : Operand) (w : BitVec s.fr.cfg.N), operandVec s.fr.cfg.N rnd = some w →
    exec (.frReset op rnd) s = .next { s with
      fr := { s.fr with S := w, init := true }, pc := s.pc + 1, res := ⟨false, false⟩ }

/-- R114: after any number of reset cycles, the draw of the last is the one that stays; one is enough.
The spec's decisions D6 and D30; the draw's spelling is log entry 10. -/
def Obligations.LastResetDrawStays : Prop :=
  ∀ (s : State) (earlier : List (OpCode × Operand)) (op : OpCode) (rnd : Operand) (w : BitVec s.fr.cfg.N),
    (∀ r ∈ earlier, r.2.fits s.fr.cfg.N = true) → operandVec s.fr.cfg.N rnd = some w →
    ∃ u, execAll ((earlier ++ [(op, rnd)]).map fun r => Instr.frReset r.1 r.2) s = .next u ∧
      u.fr = { s.fr with S := w, init := true }

/-- R95: an `FR` and an `LFSR` of the same configuration and state: the `FR` returns at each `STEP` the bit `EVAL` of
the `LFSR` returns, and both states advance identically.
Derived by the spec from R92, R64, R67. -/
def Obligations.FrFollowsLfsr : Prop :=
  ∀ (s : State) (N : Nat) (T S : BitVec N) (F : List (BitVec N)) (r : Bool) (n : Nat),
    s.lfsr = ⟨⟨N, T, F⟩, S, true, r⟩ → s.fr = ⟨⟨N, T, F⟩, S, true⟩ →
    ∃ u v, execAll (List.replicate n .frStep) s = .next u ∧
      execAll (List.replicate n [Instr.lfsrEval, Instr.lfsrStep]).flatten s = .next v ∧
      u.fr = ⟨⟨N, T, F⟩, (stepR T)^[n] S, true⟩ ∧ v.lfsr = ⟨⟨N, T, F⟩, (stepR T)^[n] S, true, r⟩ ∧
      u.results = s.results ++ (List.range n).map (fun t => (.fr, nlfF F ((stepR T)^[t] S))) ∧
      v.results = s.results ++ (List.range n).flatMap (fun t =>
        [(.lfsr, nlfF F ((stepR T)^[t] S)), (.lfsr, outBit ((stepR T)^[t] S))])

/-- R96: an `FR` of a legal configuration returns to its state after some number of steps, and its keystream repeats
with every period of its register's state.
Derived by the spec from R95 and R69. -/
def Obligations.FrKeystreamIsPurelyPeriodic : Prop :=
  ∀ s : State, s.fr.cfg.Legal → s.fr.init = true →
    (∃ p : Nat, 0 < p ∧ (stepR s.fr.cfg.T)^[p] s.fr.S = s.fr.S) ∧
    ∀ p : Nat, (stepR s.fr.cfg.T)^[p] s.fr.S = s.fr.S →
      ∃ u, execAll (List.replicate p .frStep) s = .next u ∧ u.fr = s.fr ∧
        ∀ k : Nat, nlfF s.fr.cfg.F ((stepR s.fr.cfg.T)^[k + p] s.fr.S) = nlfF s.fr.cfg.F ((stepR s.fr.cfg.T)^[k] s.fr.S)

/-! ### Properties of the step of a register -/

/-- 40_lfsr.md R68: for every tap mask the zero state steps to itself with output 0, and a register loaded with 0, by either
load of an instance that was reset (R117), outputs 0 for ever.
Derived by the spec from R64. -/
def Obligations.ZeroStateLocksUp : Prop :=
  (∀ (n : Nat) (T : BitVec n), stepR T 0#n = 0#n ∧ outBit 0#n = false) ∧
  (∀ (s : State) (k : Nat) (v : Operand) (i : Instr), s.lfsr.wasReset = true → operandVec s.lfsr.cfg.N v = some 0 →
    (i = .lfsrLoad v ∨ i = .lfsrLoadRandom v) →
    ∃ u, execAll (i :: List.replicate k .lfsrStep) s = .next u ∧ u.lfsr.S = 0 ∧
      u.results = s.results ++ List.replicate k (.lfsr, false))

/-- R69: with tap 0 present the step is a bijection, its inverse is the rule's formula, and every state lies on a
cycle, so that its output sequence is purely periodic.
Derived by the spec from R64 and the legality of the tap mask. -/
def Obligations.StepIsAPermutation : Prop :=
  ∀ (n : Nat) (T : BitVec n), 1 ≤ n → T.getLsbD 0 = true →
    Function.Bijective (stepR T) ∧
    (∀ S : BitVec n, (∀ i : Nat, i + 1 < n → S.getLsbD (i + 1) = (stepR T S).getLsbD i) ∧
      S.getLsbD 0 = ((stepR T S).getLsbD (n - 1) ^^
        xorBelow (fun i => (stepR T S).getLsbD i && T.getLsbD (i + 1)) (n - 1)) ∧ (n = 1 → stepR T S = S)) ∧
    (∀ S : BitVec n, ∃ p : Nat, 0 < p ∧ (stepR T)^[p] S = S ∧
      ∀ k : Nat, outBit ((stepR T)^[k + p] S) = outBit ((stepR T)^[k] S))

/-- R70: the results of successive `STEP`s after a `LOAD`, of an instance that was reset (R117), are first the loaded state, then a linear recurrence; after
`t` steps position `i` holds output `t + i`.
Derived by the spec from R64. -/
def Obligations.OutputsFollowTheRecurrence : Prop :=
  ∀ (s : State) (v : Operand) (w : BitVec s.lfsr.cfg.N), 1 ≤ s.lfsr.cfg.N → s.lfsr.wasReset = true →
    operandVec s.lfsr.cfg.N v = some w →
    ∃ o : Nat → Bool,
      (∀ i : Nat, i < s.lfsr.cfg.N → o i = w.getLsbD i) ∧
      (∀ t : Nat, o (t + s.lfsr.cfg.N) = xorBelow (fun i => s.lfsr.cfg.T.getLsbD i && o (t + i)) s.lfsr.cfg.N) ∧
      (∀ t : Nat, ∃ u, execAll (.lfsrLoad v :: List.replicate t .lfsrStep) s = .next u ∧
        u.results = s.results ++ (List.range t).map (fun k => (.lfsr, o k)) ∧
        ∀ i : Nat, i < s.lfsr.cfg.N → u.lfsr.S.getLsbD i = o (t + i))

/-! ### Errors and faults -/

/-- 60_exceptions.md R102: in the model's view `STEP` and `EVAL` of an instance not initialized raise `Uninitialized`
with the module type, the command and the index; in the hardware's view nothing is raised, and the command steps or evaluates
the value the register holds.
The spec's decision D7; which view a run takes is log entry 2. -/
def Obligations.UninitializedReadsByView : Prop :=
  (∀ s : State, s.view = .model →
    (s.lfsr.init = false → exec .lfsrStep s = .fault (.uninitialized .lfsr .step s.pc) ∧
      exec .lfsrEval s = .fault (.uninitialized .lfsr .eval s.pc)) ∧
    (s.cg.init = false → exec .cgStep s = .fault (.uninitialized .cg .step s.pc) ∧
      exec .cgEval s = .fault (.uninitialized .cg .eval s.pc)) ∧
    (s.fr.init = false → exec .frStep s = .fault (.uninitialized .fr .step s.pc) ∧
      exec .frEval s = .fault (.uninitialized .fr .eval s.pc))) ∧
  (∀ s : State, s.view = .hardware →
    let b := s.cg.cfg.TT.getLsbD
      (4 * (s.cg.S0.getLsbD 0).toNat + 2 * (s.cg.S1.getLsbD 0).toNat + (s.cg.S2.getLsbD 0).toNat)
    let y := nlfF s.fr.cfg.F s.fr.S
    let f := nlfF s.lfsr.cfg.F s.lfsr.S
    exec .lfsrStep s = .next { s with
      lfsr := { s.lfsr with S := stepR s.lfsr.cfg.T s.lfsr.S },
      pc := s.pc + 1, results := s.results ++ [(.lfsr, s.lfsr.S.getLsbD 0)], res := ⟨true, s.lfsr.S.getLsbD 0⟩ } ∧
    exec .lfsrEval s = .next { s with pc := s.pc + 1, results := s.results ++ [(.lfsr, f)], res := ⟨true, f⟩ } ∧
    exec .cgStep s = .next { s with
      cg := { s.cg with
        S0 := stepR s.cg.cfg.T0 s.cg.S0, S1 := stepR s.cg.cfg.T1 s.cg.S1, S2 := stepR s.cg.cfg.T2 s.cg.S2 },
      pc := s.pc + 1, results := s.results ++ [(.cg, b)], res := ⟨true, b⟩ } ∧
    exec .cgEval s = .next { s with pc := s.pc + 1, results := s.results ++ [(.cg, b)], res := ⟨true, b⟩ } ∧
    exec .frStep s = .next { s with
      fr := { s.fr with S := stepR s.fr.cfg.T s.fr.S },
      pc := s.pc + 1, results := s.results ++ [(.fr, y)], res := ⟨true, y⟩ } ∧
    exec .frEval s = .next { s with pc := s.pc + 1, results := s.results ++ [(.fr, y)], res := ⟨true, y⟩ })

/-- R101: in the model's view every reserved word raises `IllegalCommand` with the module type, the op and the index.
The spec's decision D4; which view a run takes is log entry 2. -/
def Obligations.ReservedOpsFaultInTheModel : Prop :=
  ∀ s : State, s.view = .model →
    (exec .lfsrIllegal101 s = .fault (.illegalCommand .lfsr 0b101 s.pc) ∧
      exec .lfsrIllegal110 s = .fault (.illegalCommand .lfsr 0b110 s.pc) ∧
      exec .lfsrIllegal111 s = .fault (.illegalCommand .lfsr 0b111 s.pc)) ∧
    (exec .cgIllegal011 s = .fault (.illegalCommand .cg 0b011 s.pc) ∧
      exec .cgIllegal101 s = .fault (.illegalCommand .cg 0b101 s.pc) ∧
      exec .cgIllegal110 s = .fault (.illegalCommand .cg 0b110 s.pc) ∧
      exec .cgIllegal111 s = .fault (.illegalCommand .cg 0b111 s.pc)) ∧
    (exec .frIllegal010 s = .fault (.illegalCommand .fr 0b010 s.pc) ∧
      exec .frIllegal011 s = .fault (.illegalCommand .fr 0b011 s.pc) ∧
      exec .frIllegal101 s = .fault (.illegalCommand .fr 0b101 s.pc) ∧
      exec .frIllegal110 s = .fault (.illegalCommand .fr 0b110 s.pc) ∧
      exec .frIllegal111 s = .fault (.illegalCommand .fr 0b111 s.pc))

/-- R53, R56, 93_implementation_defined.md I1, and the model's choice of log entry 2: in the hardware's view a reserved
word completes with no result, and only the registers of its own instance are open, to values the statement does not
limit. -/
def Obligations.ReservedOpsCompleteInHardware : Prop :=
  ∀ s : State, s.view = .hardware →
    (∀ i : Instr, i = .lfsrIllegal101 ∨ i = .lfsrIllegal110 ∨ i = .lfsrIllegal111 →
      ∃ (v : BitVec s.lfsr.cfg.N) (d : Nat), exec i s = .next { s with
        lfsr := { s.lfsr with S := v }, pc := s.pc + 1, res := ⟨false, false⟩, drawn := d }) ∧
    (∀ i : Instr, i = .cgIllegal011 ∨ i = .cgIllegal101 ∨ i = .cgIllegal110 ∨ i = .cgIllegal111 →
      ∃ (v0 v1 v2 : BitVec s.cg.cfg.N) (d : Nat), exec i s = .next { s with
        cg := { s.cg with S0 := v0, S1 := v1, S2 := v2 }, pc := s.pc + 1, res := ⟨false, false⟩, drawn := d }) ∧
    (∀ i : Instr, i = .frIllegal010 ∨ i = .frIllegal011 ∨ i = .frIllegal101 ∨ i = .frIllegal110 ∨ i = .frIllegal111 →
      ∃ (v : BitVec s.fr.cfg.N) (d : Nat), exec i s = .next { s with
        fr := { s.fr with S := v }, pc := s.pc + 1, res := ⟨false, false⟩, drawn := d })

/-- R99 (b), R45, R55, R105: a command whose operand does not denote exactly `N` bits is refused with `InvalidLength`, naming
port, operand and index; of the three seeds the first that fails is named (log entry 13), a draw is held to the rule as an
operand of R54 (log entry 10), and an `NLF` input too (log entry 12).
The spec's decisions D12 and D28; that the command is refused when it is reached is log entry 11. -/
def Obligations.OperandsOfAnotherWidthAreRefused : Prop :=
  (∀ (s : State) (v : Operand), v.fits s.lfsr.cfg.N = false →
    exec (.lfsrLoad v) s = .refused (.invalidLength (.operand .d v s.pc)) ∧
    exec (.lfsrLoadRandom v) s = .refused (.invalidLength (.operand .rnd v s.pc))) ∧
  (∀ (s : State) (k0 k1 k2 : Operand),
    (k0.fits s.cg.cfg.N = false → exec (.cgSetState k0 k1 k2) s = .refused (.invalidLength (.operand .k0 k0 s.pc))) ∧
    (k0.fits s.cg.cfg.N = true → k1.fits s.cg.cfg.N = false →
      exec (.cgSetState k0 k1 k2) s = .refused (.invalidLength (.operand .k1 k1 s.pc))) ∧
    (k0.fits s.cg.cfg.N = true → k1.fits s.cg.cfg.N = true → k2.fits s.cg.cfg.N = false →
      exec (.cgSetState k0 k1 k2) s = .refused (.invalidLength (.operand .k2 k2 s.pc)))) ∧
  (∀ (s : State) (op : OpCode) (v : Operand), v.fits s.fr.cfg.N = false →
    exec (.frReset op v) s = .refused (.invalidLength (.operand .rnd v s.pc))) ∧
  (∀ (s : State) (x : Operand), x.fits s.nlf.cfg.N = false →
    exec (.nlfEval x) s = .refused (.invalidLength (.operand .x x s.pc)))

/-- 60_exceptions.md R98, R101, R102: exactly when a command faults and what the fault records. A reserved command raises
`IllegalCommand` with its module type, the op bits of its word and the index; a `STEP` or `EVAL` of an instance whose `init`
is false raises `Uninitialized` with its module type, the command and the index; both in the model's view alone, and nothing
else faults. A step that faults does so on the command at the index, never in an idle cycle.
The spec's decisions D4, D7, D28; the view is log entry 2. -/
def Obligations.FaultsRecordTheirCause : Prop :=
  (∀ (i : Instr) (s : State) (f : Fault), exec i s = .fault f ↔
    s.view = .model ∧
      ((i.isIllegal = true ∧ f = .illegalCommand i.module (i.word.extractLsb' 0 3) s.pc) ∨
       (i = .lfsrStep ∧ s.lfsr.init = false ∧ f = .uninitialized .lfsr .step s.pc) ∨
       (i = .lfsrEval ∧ s.lfsr.init = false ∧ f = .uninitialized .lfsr .eval s.pc) ∨
       (i = .cgStep ∧ s.cg.init = false ∧ f = .uninitialized .cg .step s.pc) ∨
       (i = .cgEval ∧ s.cg.init = false ∧ f = .uninitialized .cg .eval s.pc) ∨
       (i = .frStep ∧ s.fr.init = false ∧ f = .uninitialized .fr .step s.pc) ∨
       (i = .frEval ∧ s.fr.init = false ∧ f = .uninitialized .fr .eval s.pc))) ∧
  (∀ (s : State) (f : Fault), step s = .fault f →
    ∃ p : PortDrive, s.program[s.pc]? = some p ∧ exec (decode p) s = .fault f)

/-- No command faults or is refused but as R98 says: a run of a well-formed command in the hardware's view always
completes ("per-clock operations cannot fail", 90_conflicts.md C3), and in the model's view only `IllegalCommand` and
`Uninitialized` stop it.
Derived from 90_conflicts.md C3 and the spec's decisions D4, D7; the view is log entry 2. -/
def Obligations.WellFormedCommandsStopOnlyByTheirRule : Prop :=
  ∀ (s : State) (i : Instr), i.wellFormed ⟨s.lfsr.cfg.N, s.nlf.cfg.N, s.cg.cfg.N, s.fr.cfg.N⟩ = true →
    (∃ t, exec i s = .next t) ∨
      (s.view = .model ∧ ((i.isIllegal = true ∧ ∃ op, exec i s = .fault (.illegalCommand i.module op s.pc)) ∨
        (i.drivesResult = true ∧ ∃ c, exec i s = .fault (.uninitialized i.module c s.pc))))

/-! ### Elaboration -/

/-- R103, R17: a list of tap positions is accepted exactly when every position is in range, position 0 is listed and
none is listed twice; then the mask has exactly the listed bits. A mask is accepted, as it is, exactly when position 0 is
present and it has no bit past `N-1` (that a longer one is refused is log entry 16). Anything else is refused with
`InvalidTapSet`.
That a doubled position is refused is the spec's decision D10. -/
def Obligations.TapSetsAreChecked : Prop :=
  (∀ (N j : Nat) (l : List Int),
    (((∀ p ∈ l, 0 ≤ p ∧ p < N) ∧ (0 : Int) ∈ l ∧ l.Nodup) →
      ∃ T : BitVec N, elabTaps N j (.positions l) = .ok T ∧ ∀ i : Nat, i < N → (T.getLsbD i = true ↔ (i : Int) ∈ l)) ∧
    (¬((∀ p ∈ l, 0 ≤ p ∧ p < N) ∧ (0 : Int) ∈ l ∧ l.Nodup) →
      elabTaps N j (.positions l) = .error (.invalidTapSet j (.positions l)))) ∧
  (∀ N j m : Nat,
    ((m < 2 ^ N ∧ m.testBit 0 = true) → ∃ T : BitVec N, elabTaps N j (.mask m) = .ok T ∧ T.toNat = m) ∧
    (¬(m < 2 ^ N ∧ m.testBit 0 = true) → elabTaps N j (.mask m) = .error (.invalidTapSet j (.mask m))))

/-- R100, R18: monomials with every position in range become their masks, in list order, each with exactly the listed
bits; otherwise the first position out of range, of the first such monomial, is reported with `InvalidMonomial` and the index of
that monomial.
That the first failing monomial in list order is reported, with its index, is R98 and R106, the spec's decision D28; that of
its positions the first out of range is reported is the model's choice, log entry 18; the masks are R18's. -/
def Obligations.MonomialsAreChecked : Prop :=
  (∀ (N j : Nat) (F : List (List Int)), (∀ m ∈ F, ∀ p ∈ m, 0 ≤ p ∧ p < N) →
    ∃ Ms : List (BitVec N), elabMonomials N j F = .ok Ms ∧ Ms.length = F.length ∧
      ∀ (k : Nat) (m : List Int) (M : BitVec N), F[k]? = some m → Ms[k]? = some M →
        ∀ i : Nat, i < N → (M.getLsbD i = true ↔ (i : Int) ∈ m)) ∧
  (∀ (N j : Nat) (good : List (List Int)) (before : List Int) (p : Int) (after : List Int) (rest : List (List Int)),
    (∀ m ∈ good, ∀ q ∈ m, 0 ≤ q ∧ q < N) → (∀ q ∈ before, 0 ≤ q ∧ q < N) → ¬(0 ≤ p ∧ p < N) →
    elabMonomials N j (good ++ (before ++ p :: after) :: rest) = .error (.invalidMonomial (j + good.length) p))

/-- R104, R19: a truth table list is accepted exactly when it has 8 entries, each 0 or 1, and then entry `idx` is
`TT[idx]`; otherwise it is refused with `InvalidTruthTable`.
The spec's decision D11. -/
def Obligations.TruthTablesAreChecked : Prop :=
  ∀ tt : List Int,
    ((tt.length = 8 ∧ ∀ b ∈ tt, b = 0 ∨ b = 1) →
      ∃ TT : BitVec 8, elabTable tt = .ok TT ∧ ∀ idx : Nat, idx < 8 → (TT.getLsbD idx = true ↔ tt[idx]? = some 1)) ∧
    (¬(tt.length = 8 ∧ ∀ b ∈ tt, b = 0 ∨ b = 1) → elabTable tt = .error (.invalidTruthTable tt))

/-- R106, R15, R16: elaboration of each module type accepts what passes every check, with the length given and with each tap
mask, function and truth table in its own field as its check (R17 to R19) gives it; otherwise it reports the first failing
check, in the order length, tap sets (of registers 0, 1 and 2 in a `CG`), monomials, truth table. A function with a position
out of range is refused with `InvalidMonomial` (R98, R100).
The order is the spec's decision D28; that a refused tap set of an `LFSR` or an `FR` is recorded as register 0's is the model's
choice, log entry 19. -/
def Obligations.ElaborationAcceptsOrReportsTheFirstFailure : Prop :=
  (∀ r : CgSpec,
    (r.n < 1 → elabCg r = .error (.invalidLength (.register r.n))) ∧
    (1 ≤ r.n → legalTapSpec r.n.toNat r.taps0 = false → elabCg r = .error (.invalidTapSet 0 r.taps0)) ∧
    (1 ≤ r.n → legalTapSpec r.n.toNat r.taps0 = true → legalTapSpec r.n.toNat r.taps1 = false →
      elabCg r = .error (.invalidTapSet 1 r.taps1)) ∧
    (1 ≤ r.n → legalTapSpec r.n.toNat r.taps0 = true → legalTapSpec r.n.toNat r.taps1 = true →
      legalTapSpec r.n.toNat r.taps2 = false → elabCg r = .error (.invalidTapSet 2 r.taps2)) ∧
    (1 ≤ r.n → legalTapSpec r.n.toNat r.taps0 = true → legalTapSpec r.n.toNat r.taps1 = true →
      legalTapSpec r.n.toNat r.taps2 = true → legalTable r.tt = false →
      elabCg r = .error (.invalidTruthTable r.tt)) ∧
    (∀ (T0 T1 T2 : BitVec r.n.toNat) (TT : BitVec 8), 1 ≤ r.n → elabTaps r.n.toNat 0 r.taps0 = .ok T0 →
      elabTaps r.n.toNat 1 r.taps1 = .ok T1 → elabTaps r.n.toNat 2 r.taps2 = .ok T2 → elabTable r.tt = .ok TT →
      elabCg r = .ok { N := r.n.toNat, T0 := T0, T1 := T1, T2 := T2, TT := TT })) ∧
  (∀ r : RegisterSpec,
    (r.n < 1 → elabLfsr r = .error (.invalidLength (.register r.n)) ∧
      elabFr r = .error (.invalidLength (.register r.n))) ∧
    (1 ≤ r.n → legalTapSpec r.n.toNat r.taps = false → elabLfsr r = .error (.invalidTapSet 0 r.taps) ∧
      elabFr r = .error (.invalidTapSet 0 r.taps)) ∧
    (∀ e : Refusal, 1 ≤ r.n → legalTapSpec r.n.toNat r.taps = true → elabMonomials r.n.toNat 0 r.F = .error e →
      elabLfsr r = .error e ∧ elabFr r = .error e) ∧
    (1 ≤ r.n → legalTapSpec r.n.toNat r.taps = true → (∃ m ∈ r.F, ∃ p ∈ m, ¬(0 ≤ p ∧ p < r.n)) →
      ∃ (j : Nat) (p : Int), elabLfsr r = .error (.invalidMonomial j p) ∧ elabFr r = .error (.invalidMonomial j p)) ∧
    (∀ (T : BitVec r.n.toNat) (F : List (BitVec r.n.toNat)), 1 ≤ r.n → elabTaps r.n.toNat 0 r.taps = .ok T →
      elabMonomials r.n.toNat 0 r.F = .ok F →
      elabLfsr r = .ok { N := r.n.toNat, T := T, F := F } ∧ elabFr r = .ok { N := r.n.toNat, T := T, F := F })) ∧
  (∀ r : NlfSpec,
    (r.n < 1 → elabNlf r = .error (.invalidLength (.register r.n))) ∧
    (∀ e : Refusal, 1 ≤ r.n → elabMonomials r.n.toNat 0 r.F = .error e → elabNlf r = .error e) ∧
    (1 ≤ r.n → (∃ m ∈ r.F, ∃ p ∈ m, ¬(0 ≤ p ∧ p < r.n)) →
      ∃ (j : Nat) (p : Int), elabNlf r = .error (.invalidMonomial j p)) ∧
    (∀ F : List (BitVec r.n.toNat), 1 ≤ r.n → elabMonomials r.n.toNat 0 r.F = .ok F →
      elabNlf r = .ok { N := r.n.toNat, F := F }))

/-- R105, R117, 70_reset_and_hazards.md R115: what elaboration accepts is legal, and the machine powered on with it meets the
invariant, with every instance not initialized; and in the model's view, whatever commands completed since power-on, `STEP`
and `EVAL` of an instance raise `Uninitialized` as long as no reset of it was among them.
The spec's decisions D20 and D24; the invariant and the view (log entry 2) are the model's, and what a load does before the
first reset is log entry 17. -/
def Obligations.PowerOnReadsFaultUntilTheFirstReset : Prop :=
  ∀ (rl rf : RegisterSpec) (rn : NlfSpec) (rc : CgSpec) (l : LfsrConfig) (n : NlfConfig) (c : CgConfig) (f : FrConfig)
    (view : View) (prog : List PortDrive),
    elabLfsr rl = .ok l → elabNlf rn = .ok n → elabCg rc = .ok c → elabFr rf = .ok f →
    ((powerOn l n c f view prog).Inv ∧ (l.N : Int) = rl.n ∧ (n.N : Int) = rn.n ∧ (c.N : Int) = rc.n ∧ (f.N : Int) = rf.n ∧
      (powerOn l n c f view prog).lfsr.init = false ∧ (powerOn l n c f view prog).cg.init = false ∧
      (powerOn l n c f view prog).fr.init = false) ∧
    ∀ (is : List Instr) (t : State), execAll is (powerOn l n c f .model prog) = .next t →
      ((∀ op : OpCode, .lfsrReset op ∉ is) → exec .lfsrStep t = .fault (.uninitialized .lfsr .step t.pc) ∧
        exec .lfsrEval t = .fault (.uninitialized .lfsr .eval t.pc)) ∧
      ((∀ op : OpCode, .cgReset op ∉ is) → exec .cgStep t = .fault (.uninitialized .cg .step t.pc) ∧
        exec .cgEval t = .fault (.uninitialized .cg .eval t.pc)) ∧
      ((∀ (op : OpCode) (r : Operand), .frReset op r ∉ is) → exec .frStep t = .fault (.uninitialized .fr .step t.pc) ∧
        exec .frEval t = .fault (.uninitialized .fr .eval t.pc))

/-! ### The whole machine -/

/-- R20, R118: no command and no reset writes any configuration field. Nor does any write the program, which the driver holds
(R58, the spec's decision D18; log entry 7), or the view (log entry 2), and every command that completes takes one cycle of
the program (R58).
That the configuration stands in fields of State, where R20 has a parameter, is the model's choice, log entry 1. -/
def Obligations.ConfigurationIsReadOnly : Prop :=
  (∀ (i : Instr) (s t : State), exec i s = .next t →
    t.lfsr.cfg = s.lfsr.cfg ∧ t.nlf.cfg = s.nlf.cfg ∧ t.cg.cfg = s.cg.cfg ∧ t.fr.cfg = s.fr.cfg ∧
    t.program = s.program ∧ t.view = s.view ∧ t.pc = s.pc + 1) ∧
  (∀ s t : State, step s = .next t →
    t.lfsr.cfg = s.lfsr.cfg ∧ t.nlf.cfg = s.nlf.cfg ∧ t.cg.cfg = s.cg.cfg ∧ t.fr.cfg = s.fr.cfg ∧
    t.program = s.program ∧ t.view = s.view)

/-- R21, R22, R23: each state register is written by the commands its rule names, and by its reset, and by nothing else;
the free contents after a reserved word are the hardware's view alone (log entry 2).
The view is the model's. -/
def Obligations.RegistersAreWrittenOnlyByTheirCommands : Prop :=
  ∀ (i : Instr) (s t : State), exec i s = .next t → (s.view = .model ∨ i.isIllegal = false) →
    ((i ≠ .lfsrStep ∧ (∀ v, i ≠ .lfsrLoad v) ∧ (∀ r, i ≠ .lfsrLoadRandom r) ∧ (∀ op, i ≠ .lfsrReset op)) →
      t.lfsr = s.lfsr) ∧
    ((i ≠ .cgStep ∧ (∀ a b c, i ≠ .cgSetState a b c) ∧ (∀ op, i ≠ .cgReset op)) → t.cg = s.cg) ∧
    ((i ≠ .frStep ∧ (∀ op r, i ≠ .frReset op r)) → t.fr = s.fr)

/-- R25, R115, R117: the initialized markers: set by `LOAD`, `LOAD_RANDOM` and `SET_STATE` of an instance that was reset and
by the reset of an `FR`, cleared by the reset of an `LFSR` or a `CG`, and unchanged by everything else; that an instance was
reset is recorded by its reset and by nothing else. A load before the first reset completes and leaves the marker as it was
and the registers at values the statement does not limit.
The spec's decisions D7 and D24; the load before the first reset is log entry 17. -/
def Obligations.InitializedMarkersFollowTheirRule : Prop :=
  (∀ (i : Instr) (s t : State), exec i s = .next t →
    (t.lfsr.init = true ↔
      (s.lfsr.wasReset = true ∧ ((∃ v, i = .lfsrLoad v) ∨ ∃ r, i = .lfsrLoadRandom r)) ∨
      (s.lfsr.init = true ∧ ∀ op, i ≠ .lfsrReset op)) ∧
    (t.cg.init = true ↔ (s.cg.wasReset = true ∧ ∃ a b c, i = .cgSetState a b c) ∨
      (s.cg.init = true ∧ ∀ op, i ≠ .cgReset op)) ∧
    (t.fr.init = true ↔ (∃ op r, i = .frReset op r) ∨ s.fr.init = true) ∧
    (t.lfsr.wasReset = true ↔ s.lfsr.wasReset = true ∨ ∃ op, i = .lfsrReset op) ∧
    (t.cg.wasReset = true ↔ s.cg.wasReset = true ∨ ∃ op, i = .cgReset op)) ∧
  (∀ (s : State) (v : Operand), s.lfsr.wasReset = false → v.fits s.lfsr.cfg.N = true →
    ∃ (S : BitVec s.lfsr.cfg.N) (d : Nat), ∀ i : Instr, (i = .lfsrLoad v ∨ i = .lfsrLoadRandom v) →
      exec i s = .next { s with
        lfsr := { s.lfsr with S := S }, pc := s.pc + 1, res := ⟨false, false⟩, drawn := d }) ∧
  (∀ (s : State) (k0 k1 k2 : Operand), s.cg.wasReset = false →
    k0.fits s.cg.cfg.N = true → k1.fits s.cg.cfg.N = true → k2.fits s.cg.cfg.N = true →
    ∃ (S0 S1 S2 : BitVec s.cg.cfg.N) (d : Nat), exec (.cgSetState k0 k1 k2) s = .next { s with
      cg := { s.cg with S0 := S0, S1 := S1, S2 := S2 }, pc := s.pc + 1, res := ⟨false, false⟩, drawn := d })

/-- R26: instances share nothing. A command leaves every instance of another module type as it was, and what it does to
its own, what it shows and what it adds to the results depends on nothing of theirs. Only a command that leaves unspecified
contents reads the model's counter of free values (log entry 3).
The spec's decision D25; that there is one of each type is log entry 5. -/
def Obligations.InstancesShareNothing : Prop :=
  (∀ (i : Instr) (s t : State), exec i s = .next t →
    (i.module ≠ .lfsr → t.lfsr = s.lfsr) ∧ t.nlf = s.nlf ∧ (i.module ≠ .cg → t.cg = s.cg) ∧
    (i.module ≠ .fr → t.fr = s.fr)) ∧
  (∀ (i : Instr) (s s' t : State), exec i s = .next t → s'.view = s.view →
    (s.usesFreeValues i = true → s'.drawn = s.drawn) →
    ((i.module = .lfsr ∧ s'.lfsr = s.lfsr) ∨ (i.module = .nlf ∧ s'.nlf = s.nlf) ∨ (i.module = .cg ∧ s'.cg = s.cg) ∨
      (i.module = .fr ∧ s'.fr = s.fr)) →
    ∃ (t' : State) (new : List (ModuleType × Bool)), exec i s' = .next t' ∧ t'.res = t.res ∧
      t.results = s.results ++ new ∧ t'.results = s'.results ++ new ∧
      (i.module = .lfsr → t'.lfsr = t.lfsr) ∧ (i.module = .cg → t'.cg = t.cg) ∧ (i.module = .fr → t'.fr = t.fr))

/-- R53: `res_v_o` is 1 exactly for `STEP` and `EVAL`, and then the returned bit, and no other, joins the results;
otherwise both outputs are 0, and the results are as they were (an `NLF` evaluation, which has no result port, adds
what was read of `y_o`, log entry 12).
The spec's decision D5. -/
def Obligations.ResultPortFollowsTheCommand : Prop :=
  ∀ (i : Instr) (s t : State), exec i s = .next t →
    t.res.valid = i.drivesResult ∧
    (i.drivesResult = true → t.results = s.results ++ [(i.module, t.res.bit)]) ∧
    (i.drivesResult = false → t.res.bit = false) ∧
    (i.drivesResult = false → i.module ≠ .nlf → t.results = s.results) ∧
    (i.module = .nlf → ∃ b, t.results = s.results ++ [(.nlf, b)])

/-- 70_reset_and_hazards.md R119: the result of a `STEP` is computed from the state before it, and `out_o`, `ks_o` or `y_o`
in the next cycle shows the bit the next `STEP` returns (as it showed, in the cycle before, the bit this one returns). -/
def Obligations.StepsEmitBeforeTheyUpdate : Prop :=
  (∀ s : State, s.lfsr.init = true → ∃ t u, exec .lfsrStep s = .next t ∧ t.res = ⟨true, s.lfsr.S.getLsbD 0⟩ ∧
    lfsrOutO s = some t.res.bit ∧ exec .lfsrStep t = .next u ∧ lfsrOutO t = some u.res.bit) ∧
  (∀ s : State, s.cg.init = true → ∃ t u, exec .cgStep s = .next t ∧
    t.res = ⟨true, s.cg.cfg.TT.getLsbD
      (4 * (s.cg.S0.getLsbD 0).toNat + 2 * (s.cg.S1.getLsbD 0).toNat + (s.cg.S2.getLsbD 0).toNat)⟩ ∧
    cgKsO s = some t.res.bit ∧ exec .cgStep t = .next u ∧ cgKsO t = some u.res.bit) ∧
  (∀ s : State, s.fr.init = true → ∃ t u, exec .frStep s = .next t ∧ t.res = ⟨true, nlfF s.fr.cfg.F s.fr.S⟩ ∧
    frYO s = some t.res.bit ∧ exec .frStep t = .next u ∧ frYO t = some u.res.bit)

/-- 10_state.md R24, R25, R28 to R31, 70_reset_and_hazards.md R120: every output port is a function of the state held in the
cycle; `EVAL` returns what its port shows; no output is observable while `init` is false in the model's view, so none after
the reset of an `LFSR` or a `CG`; and what a load, a seed or a draw writes is on the ports of the next state.
The spec's decisions D2, D5, D7, D16; the views are log entries 2 and 15, loads before the first reset log entry 17. -/
def Obligations.OutputPortsShowTheStateHeld : Prop :=
  (∀ s : State,
    ((s.lfsr.init = true ∨ s.view = .hardware) → lfsrStateO s = some s.lfsr.S ∧ lfsrOutO s = some (s.lfsr.S.getLsbD 0) ∧
      lfsrFO s = some (nlfF s.lfsr.cfg.F s.lfsr.S)) ∧
    (s.lfsr.init = false → s.view = .model → lfsrStateO s = none ∧ lfsrOutO s = none ∧ lfsrFO s = none) ∧
    ((s.cg.init = true ∨ s.view = .hardware) → cgState0O s = some s.cg.S0 ∧ cgState1O s = some s.cg.S1 ∧
      cgState2O s = some s.cg.S2 ∧ ∃ idx : BitVec 3, cgIdxO s = some idx ∧ idx.getLsbD 2 = s.cg.S0.getLsbD 0 ∧
        idx.getLsbD 1 = s.cg.S1.getLsbD 0 ∧ idx.getLsbD 0 = s.cg.S2.getLsbD 0 ∧
        cgKsO s = some (s.cg.cfg.TT.getLsbD idx.toNat)) ∧
    (s.cg.init = false → s.view = .model → cgState0O s = none ∧ cgState1O s = none ∧ cgState2O s = none ∧
      cgIdxO s = none ∧ cgKsO s = none) ∧
    ((s.fr.init = true ∨ s.view = .hardware) → frStateO s = some s.fr.S ∧ frYO s = some (nlfF s.fr.cfg.F s.fr.S)) ∧
    (s.fr.init = false → s.view = .model → frStateO s = none ∧ frYO s = none) ∧
    (∀ x : BitVec s.nlf.cfg.N, nlfYO s x = nlfF s.nlf.cfg.F x)) ∧
  (∀ s t : State,
    (exec .lfsrEval s = .next t → lfsrFO s = some t.res.bit) ∧ (exec .cgEval s = .next t → cgKsO s = some t.res.bit) ∧
    (exec .frEval s = .next t → frYO s = some t.res.bit)) ∧
  (∀ (s t : State) (op : OpCode), s.view = .model →
    (exec (.lfsrReset op) s = .next t → lfsrStateO t = none ∧ lfsrOutO t = none ∧ lfsrFO t = none) ∧
    (exec (.cgReset op) s = .next t → cgState0O t = none ∧ cgState1O t = none ∧ cgState2O t = none ∧ cgIdxO t = none ∧
      cgKsO t = none)) ∧
  (∀ (s t : State) (v : Operand) (w : BitVec s.lfsr.cfg.N), s.lfsr.wasReset = true →
    operandVec s.lfsr.cfg.N v = some w → (exec (.lfsrLoad v) s = .next t ∨ exec (.lfsrLoadRandom v) s = .next t) →
    (lfsrStateO t).map BitVec.toNat = some w.toNat) ∧
  (∀ (s t : State) (k0 k1 k2 : Operand) (w0 w1 w2 : BitVec s.cg.cfg.N), s.cg.wasReset = true →
    operandVec s.cg.cfg.N k0 = some w0 → operandVec s.cg.cfg.N k1 = some w1 → operandVec s.cg.cfg.N k2 = some w2 →
    exec (.cgSetState k0 k1 k2) s = .next t →
    (cgState0O t).map BitVec.toNat = some w0.toNat ∧ (cgState1O t).map BitVec.toNat = some w1.toNat ∧
      (cgState2O t).map BitVec.toNat = some w2.toNat) ∧
  (∀ (s t : State) (op : OpCode) (v : Operand) (w : BitVec s.fr.cfg.N), operandVec s.fr.cfg.N v = some w →
    exec (.frReset op v) s = .next t → (frStateO t).map BitVec.toNat = some w.toNat)

/-- R72: the result and effect of an `LFSR` command depend on its instance alone, not on the index or what came before,
and `NOP` cycles may be dropped from a run without changing a result or an end state.
Derived by the spec from R63 to R67 and R24. -/
def Obligations.NopsMayBeDropped : Prop :=
  (∀ (i : Instr) (s t : State) (k : Nat) (r : ResPort) (rs : List (ModuleType × Bool)), exec i s = .next t →
    ∃ new, t.results = s.results ++ new ∧
      exec i { s with pc := k, res := r, results := rs } = .next { t with pc := k + 1, results := rs ++ new }) ∧
  (∀ (is : List Instr) (s t : State), execAll is s = .next t →
    ∃ u, execAll (is.filter fun i => decide (i ≠ .lfsrNop ∧ i ≠ .cgNop ∧ i ≠ .frNop)) s = .next u ∧
      u.results = t.results ∧ u.lfsr = t.lfsr ∧ u.cg = t.cg ∧ u.fr = t.fr)

/-- R33, R113: right after reset `LFSR` and `CG` are not initialized, `FR` is, the result port shows 0 and the index is
0; the resets are recorded (log entry 17). The register values there are the model's (log entries 4 and 6), and no clause is about them.
The spec's decisions D5, D6, D7, D18. -/
def Obligations.ResetLeavesTheMarkers : Prop :=
  State.reset.lfsr.init = false ∧ State.reset.cg.init = false ∧ State.reset.fr.init = true ∧
    State.reset.lfsr.wasReset = true ∧ State.reset.cg.wasReset = true ∧
    State.reset.res = ⟨false, false⟩ ∧ State.reset.pc = 0 ∧ State.reset.results = []

/-- The reset state meets the invariant.
The configurations of State.reset are the model's choice, log entry 4. -/
def Obligations.ResetMeetsTheInvariant : Prop := State.reset.Inv

/-- The invariant of a run is kept by every step, from every state that meets it: the configurations stay legal (R16,
R17, R20), an initialized `LFSR` or `CG` was reset (R115), the index stays within the program, and the observation is exactly one bit for each result-returning command
before the index, in order, from the module type addressed (R53, R58, R126).
The invariant and the record of results are the model's own. -/
def Obligations.StepKeepsTheInvariant : Prop :=
  ∀ s t : State, s.Inv → step s = .next t → t.Inv

/-- 30_encoding.md R60: each pseudo-command stands for the listed commands.
The spec's decision D29. -/
def Obligations.PseudoCommandsExpand : Prop :=
  ∀ (n : Nat) (v r : Operand),
    (AsmLine.clock .lfsr).expand = some [.lfsrStep] ∧ (AsmLine.clock .cg).expand = some [.cgStep] ∧
    (AsmLine.clock .fr).expand = some [.frStep] ∧
    (AsmLine.run .lfsr n).expand = some (List.replicate n .lfsrStep) ∧
    (AsmLine.run .cg n).expand = some (List.replicate n .cgStep) ∧
    (AsmLine.run .fr n).expand = some (List.replicate n .frStep) ∧
    (AsmLine.idle .lfsr n).expand = some (List.replicate n .lfsrNop) ∧
    (AsmLine.idle .cg n).expand = some (List.replicate n .cgNop) ∧
    (AsmLine.idle .fr n).expand = some (List.replicate n .frNop) ∧
    (AsmLine.initLoad v).expand = some [.lfsrLoad v] ∧ (AsmLine.initLoadRandom r).expand = some [.lfsrLoadRandom r] ∧
    (AsmLine.evaluateFunction .lfsr).expand = some [.lfsrEval] ∧
    (AsmLine.evaluateFunction .cg).expand = some [.cgEval] ∧ (AsmLine.evaluateFunction .fr).expand = some [.frEval]
end

