-- ==== Sys2Proof/Laws/State.lean ====
section
/-! SUPPORT. What each update of the state, and of an instance, does to each field: one lemma per field per update, true
by unfolding, so that no later proof unfolds a record update. -/

namespace Sys2Proof.Machine

section
variable (s : State)

@[simp] theorem State.setLfsr_lfsr (l : Lfsr) : (s.setLfsr l).lfsr = l := rfl
@[simp] theorem State.setLfsr_nlf (l : Lfsr) : (s.setLfsr l).nlf = s.nlf := rfl
@[simp] theorem State.setLfsr_cg (l : Lfsr) : (s.setLfsr l).cg = s.cg := rfl
@[simp] theorem State.setLfsr_fr (l : Lfsr) : (s.setLfsr l).fr = s.fr := rfl
@[simp] theorem State.setLfsr_program (l : Lfsr) : (s.setLfsr l).program = s.program := rfl
@[simp] theorem State.setLfsr_pc (l : Lfsr) : (s.setLfsr l).pc = s.pc := rfl
@[simp] theorem State.setLfsr_results (l : Lfsr) : (s.setLfsr l).results = s.results := rfl
@[simp] theorem State.setLfsr_res (l : Lfsr) : (s.setLfsr l).res = s.res := rfl
@[simp] theorem State.setLfsr_view (l : Lfsr) : (s.setLfsr l).view = s.view := rfl
@[simp] theorem State.setLfsr_drawn (l : Lfsr) : (s.setLfsr l).drawn = s.drawn := rfl

@[simp] theorem State.setCg_lfsr (g : Cg) : (s.setCg g).lfsr = s.lfsr := rfl
@[simp] theorem State.setCg_nlf (g : Cg) : (s.setCg g).nlf = s.nlf := rfl
@[simp] theorem State.setCg_cg (g : Cg) : (s.setCg g).cg = g := rfl
@[simp] theorem State.setCg_fr (g : Cg) : (s.setCg g).fr = s.fr := rfl
@[simp] theorem State.setCg_program (g : Cg) : (s.setCg g).program = s.program := rfl
@[simp] theorem State.setCg_pc (g : Cg) : (s.setCg g).pc = s.pc := rfl
@[simp] theorem State.setCg_results (g : Cg) : (s.setCg g).results = s.results := rfl
@[simp] theorem State.setCg_res (g : Cg) : (s.setCg g).res = s.res := rfl
@[simp] theorem State.setCg_view (g : Cg) : (s.setCg g).view = s.view := rfl
@[simp] theorem State.setCg_drawn (g : Cg) : (s.setCg g).drawn = s.drawn := rfl

@[simp] theorem State.setFr_lfsr (f : Fr) : (s.setFr f).lfsr = s.lfsr := rfl
@[simp] theorem State.setFr_nlf (f : Fr) : (s.setFr f).nlf = s.nlf := rfl
@[simp] theorem State.setFr_cg (f : Fr) : (s.setFr f).cg = s.cg := rfl
@[simp] theorem State.setFr_fr (f : Fr) : (s.setFr f).fr = f := rfl
@[simp] theorem State.setFr_program (f : Fr) : (s.setFr f).program = s.program := rfl
@[simp] theorem State.setFr_pc (f : Fr) : (s.setFr f).pc = s.pc := rfl
@[simp] theorem State.setFr_results (f : Fr) : (s.setFr f).results = s.results := rfl
@[simp] theorem State.setFr_res (f : Fr) : (s.setFr f).res = s.res := rfl
@[simp] theorem State.setFr_view (f : Fr) : (s.setFr f).view = s.view := rfl
@[simp] theorem State.setFr_drawn (f : Fr) : (s.setFr f).drawn = s.drawn := rfl

@[simp] theorem State.draw_lfsr (n : Nat) : (s.draw n).lfsr = s.lfsr := rfl
@[simp] theorem State.draw_nlf (n : Nat) : (s.draw n).nlf = s.nlf := rfl
@[simp] theorem State.draw_cg (n : Nat) : (s.draw n).cg = s.cg := rfl
@[simp] theorem State.draw_fr (n : Nat) : (s.draw n).fr = s.fr := rfl
@[simp] theorem State.draw_program (n : Nat) : (s.draw n).program = s.program := rfl
@[simp] theorem State.draw_pc (n : Nat) : (s.draw n).pc = s.pc := rfl
@[simp] theorem State.draw_results (n : Nat) : (s.draw n).results = s.results := rfl
@[simp] theorem State.draw_res (n : Nat) : (s.draw n).res = s.res := rfl
@[simp] theorem State.draw_view (n : Nat) : (s.draw n).view = s.view := rfl
@[simp] theorem State.draw_drawn (n : Nat) : (s.draw n).drawn = s.drawn + n := rfl

@[simp] theorem State.loseLfsr_lfsr : s.loseLfsr.lfsr = s.lfsr.lost s.drawn := rfl
@[simp] theorem State.loseLfsr_nlf : s.loseLfsr.nlf = s.nlf := rfl
@[simp] theorem State.loseLfsr_cg : s.loseLfsr.cg = s.cg := rfl
@[simp] theorem State.loseLfsr_fr : s.loseLfsr.fr = s.fr := rfl
@[simp] theorem State.loseLfsr_program : s.loseLfsr.program = s.program := rfl
@[simp] theorem State.loseLfsr_pc : s.loseLfsr.pc = s.pc := rfl
@[simp] theorem State.loseLfsr_results : s.loseLfsr.results = s.results := rfl
@[simp] theorem State.loseLfsr_res : s.loseLfsr.res = s.res := rfl
@[simp] theorem State.loseLfsr_view : s.loseLfsr.view = s.view := rfl
@[simp] theorem State.loseLfsr_drawn : s.loseLfsr.drawn = s.drawn + 1 := rfl

@[simp] theorem State.loseCg_lfsr : s.loseCg.lfsr = s.lfsr := rfl
@[simp] theorem State.loseCg_nlf : s.loseCg.nlf = s.nlf := rfl
@[simp] theorem State.loseCg_cg : s.loseCg.cg = s.cg.lost s.drawn := rfl
@[simp] theorem State.loseCg_fr : s.loseCg.fr = s.fr := rfl
@[simp] theorem State.loseCg_program : s.loseCg.program = s.program := rfl
@[simp] theorem State.loseCg_pc : s.loseCg.pc = s.pc := rfl
@[simp] theorem State.loseCg_results : s.loseCg.results = s.results := rfl
@[simp] theorem State.loseCg_res : s.loseCg.res = s.res := rfl
@[simp] theorem State.loseCg_view : s.loseCg.view = s.view := rfl
@[simp] theorem State.loseCg_drawn : s.loseCg.drawn = s.drawn + 3 := rfl

@[simp] theorem State.loseFr_lfsr : s.loseFr.lfsr = s.lfsr := rfl
@[simp] theorem State.loseFr_nlf : s.loseFr.nlf = s.nlf := rfl
@[simp] theorem State.loseFr_cg : s.loseFr.cg = s.cg := rfl
@[simp] theorem State.loseFr_fr : s.loseFr.fr = s.fr.lost s.drawn := rfl
@[simp] theorem State.loseFr_program : s.loseFr.program = s.program := rfl
@[simp] theorem State.loseFr_pc : s.loseFr.pc = s.pc := rfl
@[simp] theorem State.loseFr_results : s.loseFr.results = s.results := rfl
@[simp] theorem State.loseFr_res : s.loseFr.res = s.res := rfl
@[simp] theorem State.loseFr_view : s.loseFr.view = s.view := rfl
@[simp] theorem State.loseFr_drawn : s.loseFr.drawn = s.drawn + 1 := rfl

@[simp] theorem State.giveLfsr_lfsr (v : BitVec s.lfsr.cfg.N) : (s.giveLfsr v).lfsr = s.lfsr.given s.drawn v := rfl
@[simp] theorem State.giveLfsr_nlf (v : BitVec s.lfsr.cfg.N) : (s.giveLfsr v).nlf = s.nlf := rfl
@[simp] theorem State.giveLfsr_cg (v : BitVec s.lfsr.cfg.N) : (s.giveLfsr v).cg = s.cg := rfl
@[simp] theorem State.giveLfsr_fr (v : BitVec s.lfsr.cfg.N) : (s.giveLfsr v).fr = s.fr := rfl
@[simp] theorem State.giveLfsr_program (v : BitVec s.lfsr.cfg.N) : (s.giveLfsr v).program = s.program := rfl
@[simp] theorem State.giveLfsr_pc (v : BitVec s.lfsr.cfg.N) : (s.giveLfsr v).pc = s.pc := rfl
@[simp] theorem State.giveLfsr_results (v : BitVec s.lfsr.cfg.N) : (s.giveLfsr v).results = s.results := rfl
@[simp] theorem State.giveLfsr_res (v : BitVec s.lfsr.cfg.N) : (s.giveLfsr v).res = s.res := rfl
@[simp] theorem State.giveLfsr_view (v : BitVec s.lfsr.cfg.N) : (s.giveLfsr v).view = s.view := rfl
@[simp] theorem State.giveLfsr_drawn (v : BitVec s.lfsr.cfg.N) :
    (s.giveLfsr v).drawn = s.drawn + if s.lfsr.wasReset then 0 else 1 := rfl

@[simp] theorem State.giveCg_lfsr (v0 v1 v2 : BitVec s.cg.cfg.N) : (s.giveCg v0 v1 v2).lfsr = s.lfsr := rfl
@[simp] theorem State.giveCg_nlf (v0 v1 v2 : BitVec s.cg.cfg.N) : (s.giveCg v0 v1 v2).nlf = s.nlf := rfl
@[simp] theorem State.giveCg_cg (v0 v1 v2 : BitVec s.cg.cfg.N) : (s.giveCg v0 v1 v2).cg = s.cg.given s.drawn v0 v1 v2 := rfl
@[simp] theorem State.giveCg_fr (v0 v1 v2 : BitVec s.cg.cfg.N) : (s.giveCg v0 v1 v2).fr = s.fr := rfl
@[simp] theorem State.giveCg_program (v0 v1 v2 : BitVec s.cg.cfg.N) : (s.giveCg v0 v1 v2).program = s.program := rfl
@[simp] theorem State.giveCg_pc (v0 v1 v2 : BitVec s.cg.cfg.N) : (s.giveCg v0 v1 v2).pc = s.pc := rfl
@[simp] theorem State.giveCg_results (v0 v1 v2 : BitVec s.cg.cfg.N) : (s.giveCg v0 v1 v2).results = s.results := rfl
@[simp] theorem State.giveCg_res (v0 v1 v2 : BitVec s.cg.cfg.N) : (s.giveCg v0 v1 v2).res = s.res := rfl
@[simp] theorem State.giveCg_view (v0 v1 v2 : BitVec s.cg.cfg.N) : (s.giveCg v0 v1 v2).view = s.view := rfl
@[simp] theorem State.giveCg_drawn (v0 v1 v2 : BitVec s.cg.cfg.N) :
    (s.giveCg v0 v1 v2).drawn = s.drawn + if s.cg.wasReset then 0 else 3 := rfl

@[simp] theorem State.retire_lfsr : s.retire.lfsr = s.lfsr := rfl
@[simp] theorem State.retire_nlf : s.retire.nlf = s.nlf := rfl
@[simp] theorem State.retire_cg : s.retire.cg = s.cg := rfl
@[simp] theorem State.retire_fr : s.retire.fr = s.fr := rfl
@[simp] theorem State.retire_program : s.retire.program = s.program := rfl
@[simp] theorem State.retire_pc : s.retire.pc = s.pc + 1 := rfl
@[simp] theorem State.retire_results : s.retire.results = s.results := rfl
@[simp] theorem State.retire_res : s.retire.res = noResult := rfl
@[simp] theorem State.retire_view : s.retire.view = s.view := rfl
@[simp] theorem State.retire_drawn : s.retire.drawn = s.drawn := rfl

@[simp] theorem State.retireWith_lfsr (m : ModuleType) (b : Bool) : (s.retireWith m b).lfsr = s.lfsr := rfl
@[simp] theorem State.retireWith_nlf (m : ModuleType) (b : Bool) : (s.retireWith m b).nlf = s.nlf := rfl
@[simp] theorem State.retireWith_cg (m : ModuleType) (b : Bool) : (s.retireWith m b).cg = s.cg := rfl
@[simp] theorem State.retireWith_fr (m : ModuleType) (b : Bool) : (s.retireWith m b).fr = s.fr := rfl
@[simp] theorem State.retireWith_program (m : ModuleType) (b : Bool) : (s.retireWith m b).program = s.program := rfl
@[simp] theorem State.retireWith_pc (m : ModuleType) (b : Bool) : (s.retireWith m b).pc = s.pc + 1 := rfl
@[simp] theorem State.retireWith_results (m : ModuleType) (b : Bool) :
    (s.retireWith m b).results = s.results ++ [(m, b)] := rfl
@[simp] theorem State.retireWith_res (m : ModuleType) (b : Bool) : (s.retireWith m b).res = resultBit b := rfl
@[simp] theorem State.retireWith_view (m : ModuleType) (b : Bool) : (s.retireWith m b).view = s.view := rfl
@[simp] theorem State.retireWith_drawn (m : ModuleType) (b : Bool) : (s.retireWith m b).drawn = s.drawn := rfl

@[simp] theorem State.retireReading_lfsr (b : Bool) : (s.retireReading b).lfsr = s.lfsr := rfl
@[simp] theorem State.retireReading_nlf (b : Bool) : (s.retireReading b).nlf = s.nlf := rfl
@[simp] theorem State.retireReading_cg (b : Bool) : (s.retireReading b).cg = s.cg := rfl
@[simp] theorem State.retireReading_fr (b : Bool) : (s.retireReading b).fr = s.fr := rfl
@[simp] theorem State.retireReading_program (b : Bool) : (s.retireReading b).program = s.program := rfl
@[simp] theorem State.retireReading_pc (b : Bool) : (s.retireReading b).pc = s.pc + 1 := rfl
@[simp] theorem State.retireReading_results (b : Bool) : (s.retireReading b).results = s.results ++ [(.nlf, b)] := rfl
@[simp] theorem State.retireReading_res (b : Bool) : (s.retireReading b).res = noResult := rfl
@[simp] theorem State.retireReading_view (b : Bool) : (s.retireReading b).view = s.view := rfl
@[simp] theorem State.retireReading_drawn (b : Bool) : (s.retireReading b).drawn = s.drawn := rfl

@[simp] theorem State.idle_lfsr : s.idle.lfsr = s.lfsr := rfl
@[simp] theorem State.idle_nlf : s.idle.nlf = s.nlf := rfl
@[simp] theorem State.idle_cg : s.idle.cg = s.cg := rfl
@[simp] theorem State.idle_fr : s.idle.fr = s.fr := rfl
@[simp] theorem State.idle_program : s.idle.program = s.program := rfl
@[simp] theorem State.idle_pc : s.idle.pc = s.pc := rfl
@[simp] theorem State.idle_results : s.idle.results = s.results := rfl
@[simp] theorem State.idle_res : s.idle.res = noResult := rfl
@[simp] theorem State.idle_view : s.idle.view = s.view := rfl
@[simp] theorem State.idle_drawn : s.idle.drawn = s.drawn := rfl

@[simp] theorem State.present_lfsr (p : PortDrive) : (s.present p).lfsr = s.lfsr := rfl
@[simp] theorem State.present_nlf (p : PortDrive) : (s.present p).nlf = s.nlf := rfl
@[simp] theorem State.present_cg (p : PortDrive) : (s.present p).cg = s.cg := rfl
@[simp] theorem State.present_fr (p : PortDrive) : (s.present p).fr = s.fr := rfl
@[simp] theorem State.present_program (p : PortDrive) : (s.present p).program = placeAt p s.program s.pc := rfl
@[simp] theorem State.present_pc (p : PortDrive) : (s.present p).pc = s.pc := rfl
@[simp] theorem State.present_results (p : PortDrive) : (s.present p).results = s.results := rfl
@[simp] theorem State.present_res (p : PortDrive) : (s.present p).res = s.res := rfl
@[simp] theorem State.present_view (p : PortDrive) : (s.present p).view = s.view := rfl
@[simp] theorem State.present_drawn (p : PortDrive) : (s.present p).drawn = s.drawn := rfl

end

section
variable (l : Lfsr) (g : Cg) (f : Fr)

@[simp] theorem Lfsr.stepped_cfg : l.stepped.cfg = l.cfg := rfl
@[simp] theorem Lfsr.stepped_S : l.stepped.S = stepR l.cfg.T l.S := rfl
@[simp] theorem Lfsr.stepped_init : l.stepped.init = l.init := rfl
@[simp] theorem Lfsr.stepped_wasReset : l.stepped.wasReset = l.wasReset := rfl

@[simp] theorem Lfsr.loaded_cfg (v : BitVec l.cfg.N) : (l.loaded v).cfg = l.cfg := rfl
@[simp] theorem Lfsr.loaded_S (v : BitVec l.cfg.N) : (l.loaded v).S = v := rfl
@[simp] theorem Lfsr.loaded_init (v : BitVec l.cfg.N) : (l.loaded v).init = true := rfl
@[simp] theorem Lfsr.loaded_wasReset (v : BitVec l.cfg.N) :
    (l.loaded v).wasReset = l.wasReset := rfl

@[simp] theorem Lfsr.lost_cfg (k : Nat) : (l.lost k).cfg = l.cfg := rfl
@[simp] theorem Lfsr.lost_S (k : Nat) : (l.lost k).S = Config.unspecified l.cfg.N k := rfl
@[simp] theorem Lfsr.lost_init (k : Nat) : (l.lost k).init = l.init := rfl
@[simp] theorem Lfsr.lost_wasReset (k : Nat) : (l.lost k).wasReset = l.wasReset := rfl

@[simp] theorem Lfsr.given_cfg (k : Nat) (v : BitVec l.cfg.N) : (l.given k v).cfg = l.cfg := by
  unfold Lfsr.given; split <;> rfl
@[simp] theorem Lfsr.given_wasReset (k : Nat) (v : BitVec l.cfg.N) : (l.given k v).wasReset = l.wasReset := by
  unfold Lfsr.given; split <;> rfl
@[simp] theorem Lfsr.given_init (k : Nat) (v : BitVec l.cfg.N) : (l.given k v).init = (l.wasReset || l.init) := by
  cases h : l.wasReset <;> simp [Lfsr.given, h]

@[simp] theorem Lfsr.marked_cfg : l.marked.cfg = l.cfg := rfl
@[simp] theorem Lfsr.marked_S : l.marked.S = l.S := rfl
@[simp] theorem Lfsr.marked_init : l.marked.init = false := rfl
@[simp] theorem Lfsr.marked_wasReset : l.marked.wasReset = true := rfl

@[simp] theorem Cg.stepped_cfg : g.stepped.cfg = g.cfg := rfl
@[simp] theorem Cg.stepped_S0 : g.stepped.S0 = stepR g.cfg.T0 g.S0 := rfl
@[simp] theorem Cg.stepped_S1 : g.stepped.S1 = stepR g.cfg.T1 g.S1 := rfl
@[simp] theorem Cg.stepped_S2 : g.stepped.S2 = stepR g.cfg.T2 g.S2 := rfl
@[simp] theorem Cg.stepped_init : g.stepped.init = g.init := rfl
@[simp] theorem Cg.stepped_wasReset : g.stepped.wasReset = g.wasReset := rfl

@[simp] theorem Cg.loaded_cfg (v0 v1 v2 : BitVec g.cfg.N) : (g.loaded v0 v1 v2).cfg = g.cfg := rfl
@[simp] theorem Cg.loaded_S0 (v0 v1 v2 : BitVec g.cfg.N) : (g.loaded v0 v1 v2).S0 = v0 := rfl
@[simp] theorem Cg.loaded_S1 (v0 v1 v2 : BitVec g.cfg.N) : (g.loaded v0 v1 v2).S1 = v1 := rfl
@[simp] theorem Cg.loaded_S2 (v0 v1 v2 : BitVec g.cfg.N) : (g.loaded v0 v1 v2).S2 = v2 := rfl
@[simp] theorem Cg.loaded_init (v0 v1 v2 : BitVec g.cfg.N) : (g.loaded v0 v1 v2).init = true := rfl
@[simp] theorem Cg.loaded_wasReset (v0 v1 v2 : BitVec g.cfg.N) :
    (g.loaded v0 v1 v2).wasReset = g.wasReset := rfl

@[simp] theorem Cg.lost_cfg (k : Nat) : (g.lost k).cfg = g.cfg := rfl
@[simp] theorem Cg.lost_S0 (k : Nat) : (g.lost k).S0 = Config.unspecified g.cfg.N k := rfl
@[simp] theorem Cg.lost_S1 (k : Nat) : (g.lost k).S1 = Config.unspecified g.cfg.N (k + 1) := rfl
@[simp] theorem Cg.lost_S2 (k : Nat) : (g.lost k).S2 = Config.unspecified g.cfg.N (k + 2) := rfl
@[simp] theorem Cg.lost_init (k : Nat) : (g.lost k).init = g.init := rfl
@[simp] theorem Cg.lost_wasReset (k : Nat) : (g.lost k).wasReset = g.wasReset := rfl

@[simp] theorem Cg.given_cfg (k : Nat) (v0 v1 v2 : BitVec g.cfg.N) : (g.given k v0 v1 v2).cfg = g.cfg := by
  unfold Cg.given; split <;> rfl
@[simp] theorem Cg.given_wasReset (k : Nat) (v0 v1 v2 : BitVec g.cfg.N) :
    (g.given k v0 v1 v2).wasReset = g.wasReset := by
  unfold Cg.given; split <;> rfl
@[simp] theorem Cg.given_init (k : Nat) (v0 v1 v2 : BitVec g.cfg.N) :
    (g.given k v0 v1 v2).init = (g.wasReset || g.init) := by
  cases h : g.wasReset <;> simp [Cg.given, h]

@[simp] theorem Cg.marked_cfg : g.marked.cfg = g.cfg := rfl
@[simp] theorem Cg.marked_S0 : g.marked.S0 = g.S0 := rfl
@[simp] theorem Cg.marked_S1 : g.marked.S1 = g.S1 := rfl
@[simp] theorem Cg.marked_S2 : g.marked.S2 = g.S2 := rfl
@[simp] theorem Cg.marked_init : g.marked.init = false := rfl
@[simp] theorem Cg.marked_wasReset : g.marked.wasReset = true := rfl

@[simp] theorem Fr.stepped_cfg : f.stepped.cfg = f.cfg := rfl
@[simp] theorem Fr.stepped_S : f.stepped.S = stepR f.cfg.T f.S := rfl
@[simp] theorem Fr.stepped_init : f.stepped.init = f.init := rfl

@[simp] theorem Fr.loaded_cfg (v : BitVec f.cfg.N) : (f.loaded v).cfg = f.cfg := rfl
@[simp] theorem Fr.loaded_S (v : BitVec f.cfg.N) : (f.loaded v).S = v := rfl
@[simp] theorem Fr.loaded_init (v : BitVec f.cfg.N) : (f.loaded v).init = true := rfl

@[simp] theorem Fr.lost_cfg (k : Nat) : (f.lost k).cfg = f.cfg := rfl
@[simp] theorem Fr.lost_S (k : Nat) : (f.lost k).S = Config.unspecified f.cfg.N k := rfl
@[simp] theorem Fr.lost_init (k : Nat) : (f.lost k).init = f.init := rfl

end

end Sys2Proof.Machine
end

