-- ==== Sys2Proof/Laws/Ops.lean ====
section
/-! SUPPORT. For each shared operation, once, everything it can do; later proofs cite these and do not unfold it. -/

namespace Sys2Proof.Machine

/-! ### Reading a register and reserved words -/

theorem canRead_iff (s : State) (init : Bool) : s.canRead init = true ↔ init = true ∨ s.view = .hardware := by
  simp [State.canRead]

theorem reading_of_canRead {s : State} {init : Bool} (h : init = true ∨ s.view = .hardware) (m : ModuleType)
    (c : ReadCommand) (k : Result) : reading s m c init k = k := by
  simp [reading, (canRead_iff s init).mpr h]

theorem reading_of_model {s : State} {init : Bool} (hi : init = false) (hv : s.view = .model) (m : ModuleType)
    (c : ReadCommand) (k : Result) : reading s m c init k = .fault (.uninitialized m c s.pc) := by
  simp [reading, State.canRead, hi, hv]

theorem reading_next {s t : State} {init : Bool} {m : ModuleType} {c : ReadCommand} {k : Result}
    (h : reading s m c init k = .next t) : (init = true ∨ s.view = .hardware) ∧ k = .next t := by
  unfold reading at h
  split at h
  · exact ⟨(canRead_iff s init).mp ‹_›, h⟩
  · cases h

theorem illegal_model {s : State} (hv : s.view = .model) (m : ModuleType) (op : OpCode) (t : State) :
    illegal s m op t = .fault (.illegalCommand m op s.pc) := by
  simp [illegal, hv]

theorem illegal_hardware {s : State} (hv : s.view = .hardware) (m : ModuleType) (op : OpCode) (t : State) :
    illegal s m op t = .next t.retire := by
  simp [illegal, hv]

theorem illegal_next {s t u : State} {m : ModuleType} {op : OpCode} (h : illegal s m op t = .next u) :
    s.view = .hardware ∧ u = t.retire := by
  cases hv : s.view with
  | model => rw [illegal_model hv] at h; cases h
  | hardware => rw [illegal_hardware hv] at h; cases h; exact ⟨rfl, rfl⟩

/-- The two outcomes of a read: the command goes on, or `Uninitialized` in the model's view. -/
theorem reading_cases (s : State) (m : ModuleType) (c : ReadCommand) (init : Bool) (k : Result) :
    reading s m c init k = k ∨ (s.view = .model ∧ reading s m c init k = .fault (.uninitialized m c s.pc)) := by
  cases hv : s.view with
  | hardware => exact .inl (reading_of_canRead (.inr hv) m c k)
  | model =>
    cases hi : init with
    | true => exact .inl (reading_of_canRead (.inl rfl) m c k)
    | false => exact .inr ⟨rfl, reading_of_model rfl hv m c k⟩

/-- The two outcomes of a reserved word. -/
theorem illegal_cases (s : State) (m : ModuleType) (op : OpCode) (t : State) :
    illegal s m op t = .next t.retire ∨ (s.view = .model ∧ illegal s m op t = .fault (.illegalCommand m op s.pc)) := by
  cases hv : s.view with
  | hardware => exact .inl (illegal_hardware hv m op t)
  | model => exact .inr ⟨rfl, illegal_model hv m op t⟩

/-- A read that faults is one of an instance not initialized, in the model's view. -/
theorem reading_fault {s t : State} {init : Bool} {m : ModuleType} {c : ReadCommand} {f : Fault}
    (h : reading s m c init (.next t) = .fault f) : s.view = .model ∧ init = false ∧ f = .uninitialized m c s.pc := by
  cases hi : init with
  | true => rw [reading_of_canRead (.inl hi)] at h; cases h
  | false =>
    cases hv : s.view with
    | hardware => rw [reading_of_canRead (.inr hv)] at h; cases h
    | model => rw [reading_of_model hi hv] at h; cases h; exact ⟨rfl, rfl, rfl⟩

/-- A reserved word faults in the model's view only. -/
theorem illegal_fault {s t : State} {m : ModuleType} {op : OpCode} {f : Fault} (h : illegal s m op t = .fault f) :
    s.view = .model ∧ f = .illegalCommand m op s.pc := by
  cases hv : s.view with
  | hardware => rw [illegal_hardware hv] at h; cases h
  | model => rw [illegal_model hv] at h; cases h; exact ⟨rfl, rfl⟩

/-! ### Loads: before and after the first reset (log entry 17) -/

theorem giveLfsr_of_wasReset {s : State} (h : s.lfsr.wasReset = true) (v : BitVec s.lfsr.cfg.N) :
    s.giveLfsr v = s.setLfsr (s.lfsr.loaded v) := by
  simp only [State.giveLfsr, Lfsr.given, h]; rfl

theorem giveLfsr_of_not_wasReset {s : State} (h : s.lfsr.wasReset = false) (v : BitVec s.lfsr.cfg.N) :
    s.giveLfsr v = s.loseLfsr := by
  simp only [State.giveLfsr, Lfsr.given, h]; rfl

theorem giveCg_of_wasReset {s : State} (h : s.cg.wasReset = true) (v0 v1 v2 : BitVec s.cg.cfg.N) :
    s.giveCg v0 v1 v2 = s.setCg (s.cg.loaded v0 v1 v2) := by
  simp only [State.giveCg, Cg.given, h]; rfl

theorem giveCg_of_not_wasReset {s : State} (h : s.cg.wasReset = false) (v0 v1 v2 : BitVec s.cg.cfg.N) :
    s.giveCg v0 v1 v2 = s.loseCg := by
  simp only [State.giveCg, Cg.given, h]; rfl

/-! ### Operands -/

theorem operandVec_num (N : Nat) (k : Int) :
    operandVec N (.num k) = if 0 ≤ k ∧ k < 2 ^ N then some (BitVec.ofNat N k.toNat) else none := rfl

theorem operandVec_bits (N : Nat) (l : List Bool) :
    operandVec N (.bits l) = if l.length = N then some (BitVec.ofNat N (bitsNumber l)) else none := rfl

theorem withOperand_some {s : State} {port : DataPort} {N : Nat} {v : Operand} {w : BitVec N}
    (h : operandVec N v = some w) (k : BitVec N → Result) : withOperand s port N v k = k w := by
  simp [withOperand, h]

theorem withOperand_none {s : State} {port : DataPort} {N : Nat} {v : Operand} (h : operandVec N v = none)
    (k : BitVec N → Result) : withOperand s port N v k = .refused (.invalidLength (.operand port v s.pc)) := by
  simp [withOperand, h]

theorem withOperand_next {s t : State} {port : DataPort} {N : Nat} {v : Operand} {k : BitVec N → Result}
    (h : withOperand s port N v k = .next t) : ∃ w, operandVec N v = some w ∧ k w = .next t := by
  unfold withOperand at h
  split at h
  · exact ⟨_, ‹_›, h⟩
  · cases h

/-- A command whose operand is read faults only as what follows the read does. -/
theorem withOperand_fault {s : State} {port : DataPort} {N : Nat} {v : Operand} {k : BitVec N → Result} {f : Fault}
    (h : withOperand s port N v k = .fault f) : ∃ w, operandVec N v = some w ∧ k w = .fault f := by
  unfold withOperand at h
  split at h
  · exact ⟨_, ‹_›, h⟩
  · cases h

/-- The interface check of WellFormed.lean and the conversion agree. -/
theorem operandVec_isSome (N : Nat) (v : Operand) : (operandVec N v).isSome = v.fits N := by
  cases v with
  | num k => by_cases h0 : 0 ≤ k <;> by_cases h1 : k < 2 ^ N <;> simp only [operandVec, Operand.fits, h0, h1] <;> rfl
  | bits l => by_cases h : l.length = N <;> simp only [operandVec, Operand.fits, h] <;> rfl

theorem operandVec_of_fits {N : Nat} {v : Operand} (h : v.fits N = true) : ∃ w, operandVec N v = some w :=
  Option.isSome_iff_exists.mp ((operandVec_isSome N v).trans h)

theorem operandVec_of_not_fits {N : Nat} {v : Operand} (h : v.fits N = false) : operandVec N v = none := by
  cases hv : operandVec N v with
  | none => rfl
  | some w => rw [← operandVec_isSome, hv] at h; cases h

/-! ### XOR over positions -/

@[simp] theorem xorBelow_zero (f : Nat → Bool) : xorBelow f 0 = false := rfl

theorem xorBelow_succ (f : Nat → Bool) (n : Nat) : xorBelow f (n + 1) = (xorBelow f n ^^ f n) := rfl

theorem xorBelow_congr {f g : Nat → Bool} {n : Nat} (h : ∀ i, i < n → f i = g i) : xorBelow f n = xorBelow g n := by
  induction n with
  | zero => rfl
  | succ n ih => rw [xorBelow_succ, xorBelow_succ, ih fun i hi => h i (by omega), h n (by omega)]

/-- The first position of an XOR can be taken out. -/
theorem xorBelow_head (f : Nat → Bool) (n : Nat) : xorBelow f (n + 1) = (f 0 ^^ xorBelow (fun i => f (i + 1)) n) := by
  induction n with
  | zero => simp [xorBelow_succ]
  | succ n ih => rw [xorBelow_succ, ih, xorBelow_succ, Bool.xor_assoc]

/-! ### The step of a register and the combiner's index -/

/-- Every position after a step, R64 (c), (d). -/
theorem stepR_getLsbD {n : Nat} (T S : BitVec n) (i : Nat) :
    (stepR T S).getLsbD i =
      if i + 1 < n then S.getLsbD (i + 1) else if i + 1 = n then feedback T S else false := by
  unfold stepR
  simp only [BitVec.getLsbD_or, BitVec.getLsbD_ushiftRight, BitVec.getLsbD_shiftLeft, BitVec.getLsbD_setWidth,
    BitVec.getLsbD_ofBool]
  rcases Nat.lt_trichotomy (i + 1) n with h | h | h
  · have h1 : i < n - 1 := by omega
    simp [h, h1, Nat.add_comm 1 i]
  · have h1 : ¬ i < n - 1 := by omega
    have h2 : i - (n - 1) = 0 := by omega
    have h3 : i < n := by omega
    have h4 : S.getLsbD (1 + i) = false := BitVec.getLsbD_of_ge _ _ (by omega)
    rw [if_neg (by omega), if_pos h]
    simp [h1, h2, h3, h4, show 0 < n by omega]
  · have h3 : ¬ i < n := by omega
    have h4 : S.getLsbD (1 + i) = false := BitVec.getLsbD_of_ge _ _ (by omega)
    rw [if_neg (by omega), if_neg (by omega)]
    simp [h3, h4]

theorem cgIndex_toNat {n : Nat} (a b c : BitVec n) :
    (cgIndex a b c).toNat = 4 * (outBit a).toNat + 2 * (outBit b).toNat + (outBit c).toNat := by
  unfold cgIndex
  cases outBit a <;> cases outBit b <;> cases outBit c <;> rfl

/-! ### The driver's program -/

theorem placeAt_get (p : PortDrive) (l : List PortDrive) (k : Nat) : (placeAt p l k)[k]? = some p := by
  induction k generalizing l with
  | zero => cases l <;> simp [placeAt]
  | succ k ih => cases l <;> simp [placeAt, ih]

theorem fetch_present (s : State) (p : PortDrive) : (s.present p).fetch = some p := placeAt_get p s.program s.pc

/-! ### Runs -/

@[simp] theorem execAll_nil (s : State) : execAll [] s = .next s := rfl

theorem execAll_cons_next {i : Instr} {is : List Instr} {s t : State} (h : exec i s = .next t) :
    execAll (i :: is) s = execAll is t := by
  simp [execAll, h]

theorem execAll_cons_inv {i : Instr} {is : List Instr} {s u : State} (h : execAll (i :: is) s = .next u) :
    ∃ t, exec i s = .next t ∧ execAll is t = .next u := by
  unfold execAll at h
  split at h
  · exact ⟨_, ‹_›, h⟩
  · cases h
  · cases h

theorem execAll_append {is js : List Instr} {s t : State} (h : execAll is s = .next t) :
    execAll (is ++ js) s = execAll js t := by
  induction is generalizing s with
  | nil => cases h; rfl
  | cons i is ih =>
    obtain ⟨u, h1, h2⟩ := execAll_cons_inv h
    rw [List.cons_append, execAll_cons_next h1, ih h2]

end Sys2Proof.Machine
end

