-- ==== Sys2Proof/Laws/Exec.lean ====
section
/-! SUPPORT. What a completed command has done, once for all of exec: later proofs take a next state apart with
`exec_completed` and unfold no meaning. -/

namespace Sys2Proof.Machine

/-- Every way in which a command completes, one constructor per instruction: what it read, and the state it leaves. -/
inductive Completed (s : State) : Instr → State → Prop
  | lfsrNop : Completed s .lfsrNop s.retire
  | cgNop : Completed s .cgNop s.retire
  | frNop : Completed s .frNop s.retire
  | lfsrReset (op) : Completed s (.lfsrReset op) ((s.setLfsr (s.lfsr.lost s.drawn).marked).draw 1).retire
  | lfsrStep : (s.lfsr.init = true ∨ s.view = .hardware) →
      Completed s .lfsrStep ((s.setLfsr s.lfsr.stepped).retireWith .lfsr (outBit s.lfsr.S))
  | lfsrLoad (v w) : operandVec s.lfsr.cfg.N v = some w → Completed s (.lfsrLoad v) (s.giveLfsr w).retire
  | lfsrLoadRandom (r w) : operandVec s.lfsr.cfg.N r = some w → Completed s (.lfsrLoadRandom r) (s.giveLfsr w).retire
  | lfsrEval : (s.lfsr.init = true ∨ s.view = .hardware) → Completed s .lfsrEval (s.retireWith .lfsr (nlfF s.lfsr.cfg.F s.lfsr.S))
  | lfsrIllegal101 : s.view = .hardware → Completed s .lfsrIllegal101 s.loseLfsr.retire
  | lfsrIllegal110 : s.view = .hardware → Completed s .lfsrIllegal110 s.loseLfsr.retire
  | lfsrIllegal111 : s.view = .hardware → Completed s .lfsrIllegal111 s.loseLfsr.retire
  | nlfEval (x w) : operandVec s.nlf.cfg.N x = some w → Completed s (.nlfEval x) (s.retireReading (nlfF s.nlf.cfg.F w))
  | cgReset (op) : Completed s (.cgReset op) ((s.setCg (s.cg.lost s.drawn).marked).draw 3).retire
  | cgStep : (s.cg.init = true ∨ s.view = .hardware) →
      Completed s .cgStep ((s.setCg s.cg.stepped).retireWith .cg (cgBit s.cg))
  | cgSetState (k0 k1 k2 w0 w1 w2) : operandVec s.cg.cfg.N k0 = some w0 →
      operandVec s.cg.cfg.N k1 = some w1 → operandVec s.cg.cfg.N k2 = some w2 →
      Completed s (.cgSetState k0 k1 k2) (s.giveCg w0 w1 w2).retire
  | cgEval : (s.cg.init = true ∨ s.view = .hardware) → Completed s .cgEval (s.retireWith .cg (cgBit s.cg))
  | cgIllegal011 : s.view = .hardware → Completed s .cgIllegal011 s.loseCg.retire
  | cgIllegal101 : s.view = .hardware → Completed s .cgIllegal101 s.loseCg.retire
  | cgIllegal110 : s.view = .hardware → Completed s .cgIllegal110 s.loseCg.retire
  | cgIllegal111 : s.view = .hardware → Completed s .cgIllegal111 s.loseCg.retire
  | frReset (op r w) : operandVec s.fr.cfg.N r = some w → Completed s (.frReset op r) (s.setFr (s.fr.loaded w)).retire
  | frStep : (s.fr.init = true ∨ s.view = .hardware) →
      Completed s .frStep ((s.setFr s.fr.stepped).retireWith .fr (nlfF s.fr.cfg.F s.fr.S))
  | frEval : (s.fr.init = true ∨ s.view = .hardware) → Completed s .frEval (s.retireWith .fr (nlfF s.fr.cfg.F s.fr.S))
  | frIllegal010 : s.view = .hardware → Completed s .frIllegal010 s.loseFr.retire
  | frIllegal011 : s.view = .hardware → Completed s .frIllegal011 s.loseFr.retire
  | frIllegal101 : s.view = .hardware → Completed s .frIllegal101 s.loseFr.retire
  | frIllegal110 : s.view = .hardware → Completed s .frIllegal110 s.loseFr.retire
  | frIllegal111 : s.view = .hardware → Completed s .frIllegal111 s.loseFr.retire

/-- The inversion of exec: a command that completed did what its meaning says. -/
theorem exec_completed {i : Instr} {s t : State} (h : exec i s = .next t) : Completed s i t := by
  cases i with
  | lfsrLoad v => obtain ⟨w, h1, h2⟩ := withOperand_next h; cases h2; exact .lfsrLoad _ _ h1
  | nlfEval v => obtain ⟨w, h1, h2⟩ := withOperand_next h; cases h2; exact .nlfEval _ _ h1
  | cgSetState a b c =>
    obtain ⟨w0, h0, h⟩ := withOperand_next h
    obtain ⟨w1, h1, h⟩ := withOperand_next h
    obtain ⟨w2, h2, h⟩ := withOperand_next h
    cases h; exact .cgSetState _ _ _ _ _ _ h0 h1 h2
  | lfsrStep => obtain ⟨h1, h2⟩ := reading_next h; cases h2; exact .lfsrStep h1
  | lfsrEval => obtain ⟨h1, h2⟩ := reading_next h; cases h2; exact .lfsrEval h1
  | cgStep => obtain ⟨h1, h2⟩ := reading_next h; cases h2; exact .cgStep h1
  | cgEval => obtain ⟨h1, h2⟩ := reading_next h; cases h2; exact .cgEval h1
  | frStep => obtain ⟨h1, h2⟩ := reading_next h; cases h2; exact .frStep h1
  | frEval => obtain ⟨h1, h2⟩ := reading_next h; cases h2; exact .frEval h1
  | lfsrNop => cases h; exact .lfsrNop
  | cgNop => cases h; exact .cgNop
  | frNop => cases h; exact .frNop
  | lfsrReset op => cases h; exact .lfsrReset _
  | cgReset op => cases h; exact .cgReset _
  | frReset op r => obtain ⟨w, h1, h2⟩ := withOperand_next h; cases h2; exact .frReset _ _ _ h1
  | lfsrLoadRandom r => obtain ⟨w, h1, h2⟩ := withOperand_next h; cases h2; exact .lfsrLoadRandom _ _ h1
  | lfsrIllegal101 => obtain ⟨h1, rfl⟩ := illegal_next h; exact .lfsrIllegal101 h1
  | lfsrIllegal110 => obtain ⟨h1, rfl⟩ := illegal_next h; exact .lfsrIllegal110 h1
  | lfsrIllegal111 => obtain ⟨h1, rfl⟩ := illegal_next h; exact .lfsrIllegal111 h1
  | cgIllegal011 => obtain ⟨h1, rfl⟩ := illegal_next h; exact .cgIllegal011 h1
  | cgIllegal101 => obtain ⟨h1, rfl⟩ := illegal_next h; exact .cgIllegal101 h1
  | cgIllegal110 => obtain ⟨h1, rfl⟩ := illegal_next h; exact .cgIllegal110 h1
  | cgIllegal111 => obtain ⟨h1, rfl⟩ := illegal_next h; exact .cgIllegal111 h1
  | frIllegal010 => obtain ⟨h1, rfl⟩ := illegal_next h; exact .frIllegal010 h1
  | frIllegal011 => obtain ⟨h1, rfl⟩ := illegal_next h; exact .frIllegal011 h1
  | frIllegal101 => obtain ⟨h1, rfl⟩ := illegal_next h; exact .frIllegal101 h1
  | frIllegal110 => obtain ⟨h1, rfl⟩ := illegal_next h; exact .frIllegal110 h1
  | frIllegal111 => obtain ⟨h1, rfl⟩ := illegal_next h; exact .frIllegal111 h1

end Sys2Proof.Machine
end

