-- ==== Sys2Proof/Laws/PerInstr.lean ====
section
/-! SUPPORT. Per command, as syntax: its encoding selects its own row of the op code table (30_encoding.md R61). -/

namespace Sys2Proof.Laws.OwnRow

/-- The command's drive addresses its module type and its word selects the row that bears its mnemonic. -/
def Statement (i : Instr) : Prop :=
  (encode i).target = i.module ∧
    ∃ r ∈ tableRows, r.mnemonic = i.mnemonic ∧ r.module = i.module ∧ (encode i).cmd &&& r.mask = r.pattern

/-- The word of every reset selects the reset row. -/
theorem reset_word_masked (op : OpCode) : (1#1 ++ op : CommandWord) &&& 0b1000 = 0b1000 := by
  revert op; decide

theorem lfsrReset (op : OpCode) : Statement (.lfsrReset op) :=
  ⟨rfl, ⟨"LFSR.RESET", .lfsr, 0b1000, 0b1000⟩, by decide, rfl, rfl, reset_word_masked op⟩

theorem lfsrNop : Statement .lfsrNop :=
  ⟨rfl, ⟨"LFSR.NOP", .lfsr, 0b0000, 0b1111⟩, by decide, rfl, rfl, rfl⟩

theorem lfsrStep : Statement .lfsrStep :=
  ⟨rfl, ⟨"LFSR.STEP", .lfsr, 0b0001, 0b1111⟩, by decide, rfl, rfl, rfl⟩

theorem lfsrLoad (v : Operand) : Statement (.lfsrLoad v) :=
  ⟨rfl, ⟨"LFSR.LOAD", .lfsr, 0b0010, 0b1111⟩, by decide, rfl, rfl, by simp only [encode, Instr.word]; decide⟩

theorem lfsrLoadRandom (rnd : Operand) : Statement (.lfsrLoadRandom rnd) :=
  ⟨rfl, ⟨"LFSR.LOAD_RANDOM", .lfsr, 0b0011, 0b1111⟩, by decide, rfl, rfl, by simp only [encode, Instr.word]; decide⟩

theorem lfsrEval : Statement .lfsrEval :=
  ⟨rfl, ⟨"LFSR.EVAL", .lfsr, 0b0100, 0b1111⟩, by decide, rfl, rfl, rfl⟩

theorem lfsrIllegal101 : Statement .lfsrIllegal101 :=
  ⟨rfl, ⟨"LFSR.ILLEGAL_101", .lfsr, 0b0101, 0b1111⟩, by decide, rfl, rfl, rfl⟩

theorem lfsrIllegal110 : Statement .lfsrIllegal110 :=
  ⟨rfl, ⟨"LFSR.ILLEGAL_110", .lfsr, 0b0110, 0b1111⟩, by decide, rfl, rfl, rfl⟩

theorem lfsrIllegal111 : Statement .lfsrIllegal111 :=
  ⟨rfl, ⟨"LFSR.ILLEGAL_111", .lfsr, 0b0111, 0b1111⟩, by decide, rfl, rfl, rfl⟩

theorem nlfEval (x : Operand) : Statement (.nlfEval x) :=
  ⟨rfl, ⟨"NLF.EVAL", .nlf, 0, 0⟩, by decide, rfl, rfl, by simp only [encode, Instr.word]; decide⟩

theorem cgReset (op : OpCode) : Statement (.cgReset op) :=
  ⟨rfl, ⟨"CG.RESET", .cg, 0b1000, 0b1000⟩, by decide, rfl, rfl, reset_word_masked op⟩

theorem cgNop : Statement .cgNop :=
  ⟨rfl, ⟨"CG.NOP", .cg, 0b0000, 0b1111⟩, by decide, rfl, rfl, rfl⟩

theorem cgStep : Statement .cgStep :=
  ⟨rfl, ⟨"CG.STEP", .cg, 0b0001, 0b1111⟩, by decide, rfl, rfl, rfl⟩

theorem cgSetState (k0 : Operand) (k1 : Operand) (k2 : Operand) : Statement (.cgSetState k0 k1 k2) :=
  ⟨rfl, ⟨"CG.SET_STATE", .cg, 0b0010, 0b1111⟩, by decide, rfl, rfl, by simp only [encode, Instr.word]; decide⟩

theorem cgEval : Statement .cgEval :=
  ⟨rfl, ⟨"CG.EVAL", .cg, 0b0100, 0b1111⟩, by decide, rfl, rfl, rfl⟩

theorem cgIllegal011 : Statement .cgIllegal011 :=
  ⟨rfl, ⟨"CG.ILLEGAL_011", .cg, 0b0011, 0b1111⟩, by decide, rfl, rfl, rfl⟩

theorem cgIllegal101 : Statement .cgIllegal101 :=
  ⟨rfl, ⟨"CG.ILLEGAL_101", .cg, 0b0101, 0b1111⟩, by decide, rfl, rfl, rfl⟩

theorem cgIllegal110 : Statement .cgIllegal110 :=
  ⟨rfl, ⟨"CG.ILLEGAL_110", .cg, 0b0110, 0b1111⟩, by decide, rfl, rfl, rfl⟩

theorem cgIllegal111 : Statement .cgIllegal111 :=
  ⟨rfl, ⟨"CG.ILLEGAL_111", .cg, 0b0111, 0b1111⟩, by decide, rfl, rfl, rfl⟩

theorem frReset (op : OpCode) (rnd : Operand) : Statement (.frReset op rnd) :=
  ⟨rfl, ⟨"FR.RESET", .fr, 0b1000, 0b1000⟩, by decide, rfl, rfl, reset_word_masked op⟩

theorem frNop : Statement .frNop :=
  ⟨rfl, ⟨"FR.NOP", .fr, 0b0000, 0b1111⟩, by decide, rfl, rfl, rfl⟩

theorem frStep : Statement .frStep :=
  ⟨rfl, ⟨"FR.STEP", .fr, 0b0001, 0b1111⟩, by decide, rfl, rfl, rfl⟩

theorem frEval : Statement .frEval :=
  ⟨rfl, ⟨"FR.EVAL", .fr, 0b0100, 0b1111⟩, by decide, rfl, rfl, rfl⟩

theorem frIllegal010 : Statement .frIllegal010 :=
  ⟨rfl, ⟨"FR.ILLEGAL_010", .fr, 0b0010, 0b1111⟩, by decide, rfl, rfl, rfl⟩

theorem frIllegal011 : Statement .frIllegal011 :=
  ⟨rfl, ⟨"FR.ILLEGAL_011", .fr, 0b0011, 0b1111⟩, by decide, rfl, rfl, rfl⟩

theorem frIllegal101 : Statement .frIllegal101 :=
  ⟨rfl, ⟨"FR.ILLEGAL_101", .fr, 0b0101, 0b1111⟩, by decide, rfl, rfl, rfl⟩

theorem frIllegal110 : Statement .frIllegal110 :=
  ⟨rfl, ⟨"FR.ILLEGAL_110", .fr, 0b0110, 0b1111⟩, by decide, rfl, rfl, rfl⟩

theorem frIllegal111 : Statement .frIllegal111 :=
  ⟨rfl, ⟨"FR.ILLEGAL_111", .fr, 0b0111, 0b1111⟩, by decide, rfl, rfl, rfl⟩

end Sys2Proof.Laws.OwnRow
end

