-- ==== Sys2Proof/Tests/Slice0.lean ====
section
/-! SUPPORT. Tests: words written out from 30_encoding.md, the vectors of 95_test_vectors.md (cited by their ids), an
ill-formed command for each check, and for every statement with hypotheses a state and operands that meet them. -/

namespace Sys2Proof.Machine

/-! ### Small states -/

/-- Four bits, position 0 first (R13). -/
def b4 (a b c d : Nat) : List Bool := [a == 1, b == 1, c == 1, d == 1]

/-- The vector of a bit string `s"abcd"`. -/
def v4 (a b c d : Nat) : BitVec 4 := BitVec.ofNat 4 (bitsNumber (b4 a b c d))

/-- State.reset with an initialized `LFSR` of a given configuration and register. -/
def lfsrWith (N : Nat) (T S : BitVec N) (F : List (BitVec N)) : State :=
  { State.reset with lfsr := ⟨⟨N, T, F⟩, S, true, true⟩ }

/-- The `LFSR` of L1-1 with a given register. -/
def lfsr4 (S : BitVec 4) : State := lfsrWith 4 0b1011 S [0b0101]

/-- The `CG` of L2-CG-1 with the registers given. -/
def cg4 (S0 S1 S2 : BitVec 4) : State :=
  { State.reset with cg := ⟨⟨4, 0b0011, 0b1001, 0b1011, 0xC5⟩, S0, S1, S2, true, true⟩ }

/-- The `FR` of L2-FR-1 with a given register. -/
def fr4 (S : BitVec 4) : State := { State.reset with fr := ⟨⟨4, 0b0011, [0b0011, 0b0100, 0b1011]⟩, S, true⟩ }

/-- State.reset before the first reset of its `LFSR` and its `CG` (R115). -/
def neverReset : State :=
  { State.reset with
    lfsr := ⟨⟨4, 0b1011, [0b0101]⟩, 0, false, false⟩
    cg := ⟨⟨4, 0b0011, 0b1001, 0b1011, 0xC5⟩, 0, 0, 0, false, false⟩ }

/-- State.reset before the first reset of its `FR` (R115). -/
def frNever : State := { State.reset with fr := ⟨⟨4, 0b0011, [0b0011, 0b0100, 0b1011]⟩, 0, false⟩ }

/-- State.reset in the hardware's view (log entry 2). -/
def hardware : State := { State.reset with view := .hardware }

/-- The command completed and left a state that passes the check. -/
def leaves (r : Result) (check : State → Bool) : Bool :=
  match r with
  | .next t => check t
  | .fault _ => false
  | .refused _ => false

/-- The command raised this fault. -/
def faults (r : Result) (f : Fault) : Bool :=
  match r with
  | .next _ => false
  | .fault g => decide (g = f)
  | .refused _ => false

/-- The command completed, returned the bit, and left the register (checked by `check`). -/
def returns (r : Result) (b : Bool) (check : State → Bool) : Bool :=
  leaves r fun t => decide (t.res = ⟨true, b⟩) && check t

/-- The command completed and returned nothing. -/
def silent (r : Result) (check : State → Bool) : Bool :=
  leaves r fun t => decide (t.res = ⟨false, false⟩) && check t

/-! ### Decoding: each command's word, bit 3 first, from R50 to R52 -/

theorem test_decode_lfsr_reset : decode { target := .lfsr, cmd := 0b1000 } = .lfsrReset 0b000 := by decide
theorem test_decode_lfsr_reset_op_ignored : decode { target := .lfsr, cmd := 0b1111 } = .lfsrReset 0b111 := by decide
theorem test_decode_lfsr_nop : decode { target := .lfsr, cmd := 0b0000 } = .lfsrNop := by decide
theorem test_decode_lfsr_step : decode { target := .lfsr, cmd := 0b0001 } = .lfsrStep := by decide
theorem test_decode_lfsr_load :
    decode { target := .lfsr, cmd := 0b0010, d := .num 6, k0 := .num 9 } = .lfsrLoad (.num 6) := by decide
theorem test_decode_lfsr_load_random :
    decode { target := .lfsr, cmd := 0b0011, d := .num 6, rnd := .num 9 } = .lfsrLoadRandom (.num 9) := by decide
theorem test_decode_lfsr_eval : decode { target := .lfsr, cmd := 0b0100 } = .lfsrEval := by decide
theorem test_decode_lfsr_illegal_101 : decode { target := .lfsr, cmd := 0b0101 } = .lfsrIllegal101 := by decide
theorem test_decode_lfsr_illegal_110 : decode { target := .lfsr, cmd := 0b0110 } = .lfsrIllegal110 := by decide
theorem test_decode_lfsr_illegal_111 : decode { target := .lfsr, cmd := 0b0111 } = .lfsrIllegal111 := by decide
theorem test_decode_nlf_eval :
    decode { target := .nlf, cmd := 0b0000, x := .num 3 } = .nlfEval (.num 3) := by decide
theorem test_decode_cg_reset : decode { target := .cg, cmd := 0b1000 } = .cgReset 0b000 := by decide
theorem test_decode_cg_nop : decode { target := .cg, cmd := 0b0000 } = .cgNop := by decide
theorem test_decode_cg_step : decode { target := .cg, cmd := 0b0001 } = .cgStep := by decide
theorem test_decode_cg_set_state :
    decode { target := .cg, cmd := 0b0010, k0 := .num 1, k1 := .num 3, k2 := .num 6 } =
      .cgSetState (.num 1) (.num 3) (.num 6) := by decide
theorem test_decode_cg_eval : decode { target := .cg, cmd := 0b0100 } = .cgEval := by decide
theorem test_decode_cg_illegal_011 : decode { target := .cg, cmd := 0b0011 } = .cgIllegal011 := by decide
theorem test_decode_cg_illegal_101 : decode { target := .cg, cmd := 0b0101 } = .cgIllegal101 := by decide
theorem test_decode_cg_illegal_110 : decode { target := .cg, cmd := 0b0110 } = .cgIllegal110 := by decide
theorem test_decode_cg_illegal_111 : decode { target := .cg, cmd := 0b0111 } = .cgIllegal111 := by decide
theorem test_decode_fr_reset : decode { target := .fr, cmd := 0b1000, rnd := .num 9 } = .frReset 0b000 (.num 9) := by decide
theorem test_decode_fr_nop : decode { target := .fr, cmd := 0b0000 } = .frNop := by decide
theorem test_decode_fr_step : decode { target := .fr, cmd := 0b0001 } = .frStep := by decide
theorem test_decode_fr_eval : decode { target := .fr, cmd := 0b0100 } = .frEval := by decide
theorem test_decode_fr_illegal_010 : decode { target := .fr, cmd := 0b0010 } = .frIllegal010 := by decide
theorem test_decode_fr_illegal_011 : decode { target := .fr, cmd := 0b0011 } = .frIllegal011 := by decide
theorem test_decode_fr_illegal_101 : decode { target := .fr, cmd := 0b0101 } = .frIllegal101 := by decide
theorem test_decode_fr_illegal_110 : decode { target := .fr, cmd := 0b0110 } = .frIllegal110 := by decide
theorem test_decode_fr_illegal_111 : decode { target := .fr, cmd := 0b0111 } = .frIllegal111 := by decide

/-! ### Well-formedness: an ill-formed command for each check -/

/-- L2-LFSR-21, L2-LFSR-22 and a negative integer; the widest and the narrowest integer pass. -/
theorem test_wf_lfsr_load :
    (Instr.lfsrLoad (.bits [false, true, true, false, true])).wellFormed ⟨4, 4, 4, 4⟩ = false ∧
      (Instr.lfsrLoad (.num 16)).wellFormed ⟨4, 4, 4, 4⟩ = false ∧
      (Instr.lfsrLoad (.num (-1))).wellFormed ⟨4, 4, 4, 4⟩ = false ∧
      (Instr.lfsrLoad (.num 15)).wellFormed ⟨4, 4, 4, 4⟩ = true ∧
      (Instr.lfsrLoad (.num 0)).wellFormed ⟨4, 4, 4, 4⟩ = true := by decide

theorem test_wf_lfsr_load_random :
    (Instr.lfsrLoadRandom (.num 16)).wellFormed ⟨4, 4, 4, 4⟩ = false ∧
      (Instr.lfsrLoadRandom (.bits [true, false])).wellFormed ⟨4, 4, 4, 4⟩ = false ∧
      (Instr.lfsrLoadRandom (.num 15)).wellFormed ⟨4, 4, 4, 4⟩ = true := by decide

theorem test_wf_nlf_eval :
    (Instr.nlfEval (.num 16)).wellFormed ⟨8, 4, 8, 8⟩ = false ∧
      (Instr.nlfEval (.num 15)).wellFormed ⟨8, 4, 8, 8⟩ = true := by decide

/-- One ill-formed seed in each place; L2-CG-9 is the second. -/
theorem test_wf_cg_set_state :
    (Instr.cgSetState (.num 16) (.num 3) (.num 6)).wellFormed ⟨8, 8, 4, 8⟩ = false ∧
      (Instr.cgSetState (.num 1) (.num 16) (.num 6)).wellFormed ⟨8, 8, 4, 8⟩ = false ∧
      (Instr.cgSetState (.num 1) (.num 3) (.bits [true])).wellFormed ⟨8, 8, 4, 8⟩ = false ∧
      (Instr.cgSetState (.num 1) (.num 3) (.num 6)).wellFormed ⟨8, 8, 4, 8⟩ = true := by decide

theorem test_wf_fr_reset :
    (Instr.frReset 0 (.num 16)).wellFormed ⟨8, 8, 8, 4⟩ = false ∧
      (Instr.frReset 0 (.num 15)).wellFormed ⟨8, 8, 8, 4⟩ = true := by
  decide

/-! ### Single steps of `LFSR`, 95_test_vectors.md -/

/-- L1-1, the source's hand trace. -/
theorem test_L1_1 :
    returns (exec .lfsrStep (lfsr4 (v4 0 1 1 0))) false (fun t => decide (t.lfsr.S.toNat = 11)) = true := by decide

/-- L2-LFSR-12: `N = 16`, taps 0, 1, 7, 11. -/
theorem test_L2_lfsr_12 :
    returns (exec .lfsrStep (lfsrWith 16 0x0883 0xACE1 [])) true (fun t => decide (t.lfsr.S.toNat = 0xD670)) = true := by
  decide

/-- L2-LFSR-1. -/
theorem test_L2_lfsr_1 :
    silent (exec .lfsrNop (lfsr4 (v4 0 1 1 0))) (fun t => decide (t.lfsr.S.toNat = 6)) = true := by decide

/-- L2-LFSR-13: the register is loaded while not initialized. -/
theorem test_L2_lfsr_13 :
    silent (exec (.lfsrLoad (.bits (b4 0 1 1 0))) State.reset)
      (fun t => decide (t.lfsr.S.toNat = 6) && t.lfsr.init) = true := by decide

/-- L2-LFSR-22. -/
theorem test_L2_lfsr_22 :
    exec (.lfsrLoad (.num 16)) State.reset = .refused (.invalidLength (.operand .d (.num 16) 0)) := by rfl

/-- L2-LFSR-15: the draw is written. -/
theorem test_L2_lfsr_15 :
    silent (exec (.lfsrLoadRandom (.num 0b1001)) State.reset)
      (fun t => decide (t.lfsr.S.toNat = 9) && t.lfsr.init) = true := by decide

/-- R55: a draw of two bits at `N = 4` is not extended but refused. -/
theorem test_draw_width :
    exec (.lfsrLoadRandom (.bits [true, false])) State.reset =
      .refused (.invalidLength (.operand .rnd (.bits [true, false]) 0)) := by rfl

/-- R115, R117: before the first reset a load does not make the register readable; after a reset it does. -/
theorem test_load_before_reset :
    leaves (exec (.lfsrLoad (.num 6)) neverReset)
        (fun t => faults (exec .lfsrStep t) (.uninitialized .lfsr .step 1)) = true ∧
      leaves (execAll [.lfsrReset 0, .lfsrLoad (.num 6)] neverReset)
        (fun t => returns (exec .lfsrStep t) false fun _ => true) = true := by decide

/-- L2-LFSR-16. -/
theorem test_L2_lfsr_16 :
    returns (exec .lfsrEval (lfsr4 (v4 1 0 1 0))) true (fun t => decide (t.lfsr.S.toNat = 5)) = true := by decide

/-- L2-LFSR-17: no monomials. -/
theorem test_L2_lfsr_17 :
    returns (exec .lfsrEval (lfsrWith 4 0b1011 (v4 1 1 1 1) [])) false (fun t => decide (t.lfsr.S.toNat = 15)) = true := by
  decide

/-- L2-LFSR-18. -/
theorem test_L2_lfsr_18 : exec .lfsrStep State.reset = .fault (.uninitialized .lfsr .step 0) := by rfl

/-- L2-LFSR-20, at the step of a machine whose driver presents word `0101`. -/
theorem test_L2_lfsr_20 :
    step (State.reset.present { target := .lfsr, cmd := 0b0101 }) = .fault (.illegalCommand .lfsr 0b101 0) := by rfl

/-- L2-RST-1: word `1001` is a reset, not a step. -/
theorem test_L2_rst_1 :
    silent (step ((lfsr4 (v4 0 1 1 0)).present { target := .lfsr, cmd := 0b1001 })) (fun t => !t.lfsr.init) = true := by
  decide

/-- R68, L2-LFSR-7 and L2-LFSR-5: the lock-up state, and `N = 1`. -/
theorem test_L2_lfsr_7_5 :
    returns (exec .lfsrStep (lfsr4 0)) false (fun t => decide (t.lfsr.S.toNat = 0)) = true ∧
      returns (exec .lfsrStep (lfsrWith 1 1 1 [])) true (fun t => decide (t.lfsr.S.toNat = 1)) = true := by decide

/-- L2-LFSR-8 and L2-LFSR-9: a rotation, and the fixed point of all ones with an odd number of taps. -/
theorem test_L2_lfsr_8_9 :
    stepR (0b0001 : BitVec 4) (v4 1 0 0 0) = v4 0 0 0 1 ∧ stepR (0b111 : BitVec 3) 0b111 = 0b111 := by decide

/-- The cycle of `0110` under taps 0, 1, 3: three states, back at the start. -/
theorem test_cycle_0110 :
    stepR (0b1011 : BitVec 4) (v4 0 1 1 0) = v4 1 1 0 1 ∧ stepR (0b1011 : BitVec 4) (v4 1 1 0 1) = v4 1 0 1 1 ∧
      stepR (0b1011 : BitVec 4) (v4 1 0 1 1) = v4 0 1 1 0 := by decide

/-- The hardware's view: an uninitialized register steps, and a reserved word completes with no result. -/
theorem test_hardware_view :
    leaves (exec .lfsrStep hardware) (fun t => t.res.valid && !t.lfsr.init) = true ∧
      silent (exec .lfsrIllegal101 hardware) (fun t => !t.lfsr.init && decide (t.pc = 1)) = true := by decide

/-! ### `NLF` -/

/-- L2-NLF's table of values, entry 3 and entry 15 of the numbers. -/
theorem test_nlf_table :
    nlfF [0b0011, 0b0100, 0b1011] (v4 1 1 0 0) = true ∧ nlfF [0b0011, 0b0100, 0b1011] (v4 1 1 0 1) = false ∧
      nlfF [0b0011, 0b0100, 0b1011] (v4 0 0 1 0) = true ∧ nlfF [0b0011, 0b0100, 0b1011] (v4 1 1 1 1) = true := by decide

/-- L2-NLF-1, L2-NLF-2, L2-NLF-3, L2-NLF-6. -/
theorem test_nlf_degenerate :
    nlfF [] (v4 1 1 1 1) = false ∧ nlfF [0] (v4 0 0 0 0) = true ∧ nlfF [0b0010, 0b0010] (v4 1 1 0 0) = false ∧
      nlfF [0, 0b0001] (v4 1 0 0 0) = false ∧ nlfF [0, 0b0001] (v4 0 0 0 0) = true := by decide

/-- R73's example on the `NLF` of State.reset: the value is read, no port is driven. -/
theorem test_nlf_eval :
    silent (exec (.nlfEval (.bits (b4 1 1 0 0))) State.reset) (fun t => decide (t.results = [(.nlf, true)])) = true := by
  decide

/-! ### `CG` -/

/-- L2-CG-1. -/
theorem test_L2_cg_1 :
    returns (exec .cgStep (cg4 (v4 1 0 0 0) (v4 1 1 0 0) (v4 0 1 1 0))) true
      (fun t => decide (t.cg.S0.toNat = 8 ∧ t.cg.S1.toNat = 9 ∧ t.cg.S2.toNat = 11)) = true := by decide

/-- L2-CG-2, its second step: index 3, entry 0. -/
theorem test_L2_cg_2 :
    cgIndex (v4 0 0 0 1) (v4 1 0 0 1) (v4 1 1 0 1) = 3 ∧
      returns (exec .cgStep (cg4 (v4 0 0 0 1) (v4 1 0 0 1) (v4 1 1 0 1))) false (fun _ => true) = true := by decide

/-- R82's example. -/
theorem test_cg_set_state :
    silent (exec (.cgSetState (.num 0b0001) (.num 0b0011) (.num 0b0110)) State.reset)
      (fun t => decide (t.cg.S0.toNat = 1 ∧ t.cg.S1.toNat = 3 ∧ t.cg.S2.toNat = 6) && t.cg.init) = true := by decide

/-- L2-CG-9. -/
theorem test_L2_cg_9 :
    exec (.cgSetState (.num 1) (.num 16) (.num 6)) State.reset =
      .refused (.invalidLength (.operand .k1 (.num 16) 0)) := by rfl

/-- L2-CG-6. -/
theorem test_L2_cg_6 :
    returns (exec .cgEval (cg4 (v4 1 0 0 0) (v4 1 1 0 0) (v4 0 1 1 0))) true
      (fun t => decide (t.cg.S0.toNat = 1 ∧ t.cg.S1.toNat = 3 ∧ t.cg.S2.toNat = 6)) = true := by decide

theorem test_cg_nop :
    silent (exec .cgNop (cg4 1 3 6)) (fun t => decide (t.cg.S0.toNat = 1 ∧ t.cg.S1.toNat = 3 ∧ t.cg.S2.toNat = 6)) = true := by
  decide

/-- L2-RST-3: after a reset the registers may not be read. -/
theorem test_L2_rst_3 :
    leaves (exec (.cgReset 0) (cg4 1 3 6)) (fun t => faults (exec .cgStep t) (.uninitialized .cg .step 1)) = true := by
  decide

/-- L2-CG-8. -/
theorem test_L2_cg_8 : exec .cgIllegal011 State.reset = .fault (.illegalCommand .cg 0b011 0) := by rfl

/-! ### `FR` -/

/-- L2-FR-1. -/
theorem test_L2_fr_1 :
    returns (exec .frStep (fr4 (v4 1 0 0 1))) false (fun t => decide (t.fr.S.toNat = 12)) = true := by decide

/-- L2-FR-2, its second step. -/
theorem test_L2_fr_2 :
    returns (exec .frStep (fr4 (v4 0 0 1 1))) true (fun t => decide (t.fr.S.toNat = 6)) = true := by decide

/-- L2-FR-3. -/
theorem test_L2_fr_3 :
    returns (exec .frEval (fr4 (v4 1 0 0 1))) false (fun t => decide (t.fr.S.toNat = 9)) = true := by decide

/-- L2-RST-2: the last draw stays. -/
theorem test_L2_rst_2 :
    leaves (execAll [.frReset 0 (.num 0b0110), .frReset 0 (.num 0b0011)] frNever)
      (fun t => decide (t.fr.S.toNat = 3) && t.fr.init) = true := by decide

theorem test_fr_nop : silent (exec .frNop (fr4 9)) (fun t => decide (t.fr.S.toNat = 9)) = true := by decide

/-- L2-FR-6. -/
theorem test_L2_fr_6 : exec .frIllegal010 State.reset = .fault (.illegalCommand .fr 0b010 0) := by rfl

/-- L2-FR-7. -/
theorem test_L2_fr_7 : exec .frStep frNever = .fault (.uninitialized .fr .step 0) := by rfl

/-! ### Elaboration -/

/-- L2-CFG-1 to L2-CFG-4, L2-CFG-6: the refusals of an `LFSR`. -/
theorem test_L2_cfg_refused :
    elabLfsr ⟨0, .positions [0], []⟩ = .error (.invalidLength (.register 0)) ∧
      elabLfsr ⟨4, .positions [1, 3], []⟩ = .error (.invalidTapSet 0 (.positions [1, 3])) ∧
      elabLfsr ⟨4, .positions [0, 4], []⟩ = .error (.invalidTapSet 0 (.positions [0, 4])) ∧
      elabLfsr ⟨4, .positions [0, 1, 1], []⟩ = .error (.invalidTapSet 0 (.positions [0, 1, 1])) ∧
      elabLfsr ⟨4, .positions [0], [[0, 4]]⟩ = .error (.invalidMonomial 0 4) := ⟨rfl, rfl, rfl, rfl, rfl⟩

/-- L2-CFG-5, L2-CFG-7. -/
theorem test_L2_cfg_accepted :
    elabLfsr ⟨4, .positions [0], [[0, 0, 2]]⟩ = .ok ⟨4, 0b0001, [0b0101]⟩ := rfl

/-- L2-CFG-8, L2-CFG-9, L2-CFG-10. -/
theorem test_L2_cfg_cg :
    elabCg ⟨4, .positions [0], .positions [0], .positions [0], [1, 0, 1, 0, 0, 0, 1]⟩ =
        .error (.invalidTruthTable [1, 0, 1, 0, 0, 0, 1]) ∧
      elabCg ⟨4, .positions [0], .positions [0], .positions [0], [1, 0, 1, 0, 0, 0, 1, 2]⟩ =
        .error (.invalidTruthTable [1, 0, 1, 0, 0, 0, 1, 2]) ∧
      elabCg ⟨4, .positions [0], .positions [1], .positions [0], [1, 0, 1, 0, 0, 0, 1, 1, 0]⟩ =
        .error (.invalidTapSet 1 (.positions [1])) := ⟨rfl, rfl, rfl⟩

/-- R19, L1-2: the table `[1,0,1,0,0,0,1,1]` is `0xC5`. -/
theorem test_table_c5 : elabTable [1, 0, 1, 0, 0, 0, 1, 1] = .ok 0xC5 := rfl

/-! ### Assembler lines (R59, R60) and the ports they drive -/

/-- P1, P3 and their ports. -/
theorem test_asm_lines :
    parseLine "LFSR.STEP".toList = some (.command .lfsrStep) ∧
      parseLine "CG.SET_STATE 1, 3, 6 ; restart".toList =
        some (.command (.cgSetState (.num 1) (.num 3) (.num 6))) ∧
      parseLine "LFSR.RUN 15".toList = some (.run .lfsr 15) ∧ parseLine "LFSR.LOAD 0x6".toList =
        some (.command (.lfsrLoad (.num 6))) ∧ parseLine "FR.LOAD 1".toList = none := by decide

/-- P4's reset with its draw, and P1's load of a bit string: braces and quotes are given by their codes. -/
theorem test_asm_draw_and_string :
    parseLine ("FR.RESET ".toList ++ [openBrace] ++ "rnd=0b1001".toList ++ [closeBrace]) =
        some (.command (.frReset 0 (.num 9))) ∧
      parseLine ("LFSR.LOAD s".toList ++ [quoteMark] ++ "0110".toList ++ [quoteMark]) =
        some (.command (.lfsrLoad (.bits (b4 0 1 1 0)))) := by decide

/-- P3, pc 11: one line, one word and three ports. -/
theorem test_assemble :
    assemble ["CG.SET_STATE 1, 3, 6".toList, "CG.RUN 2".toList] =
      some [{ target := .cg, cmd := 0b0010, k0 := .num 1, k1 := .num 3, k2 := .num 6 },
        { target := .cg, cmd := 0b0001 }, { target := .cg, cmd := 0b0001 }] := by decide

/-! ### Witnesses: for each statement with hypotheses, a state and operands that meet them, at the ends of their ranges -/

/-- DecodeAndEncodeAgree: a drive that does not address the `NLF`. -/
theorem test_witness_DecodeAndEncodeAgree : ({ target := .fr, cmd := 0b1111 } : PortDrive).target ≠ .nlf := by decide

/-- DecodeFollowsOpCodeTable: the first and the last word of a reset, and the last word that is none, in each type. -/
theorem test_witness_DecodeFollowsOpCodeTable :
    (0b1000#4).getLsbD 3 = true ∧ (0b1111#4).getLsbD 3 = true ∧ (0b0111#4).getLsbD 3 = false ∧
      ∀ m : ModuleType, m = .lfsr ∨ m = .cg ∨ m = .fr → ({ target := m, cmd := 0b1000 } : PortDrive).target = m := by
  refine ⟨by decide, by decide, by decide, fun m _ => rfl⟩

/-- SpecEncodingExamplesDecode: a module type with command words. -/
theorem test_witness_SpecEncodingExamplesDecode : ModuleType.lfsr ≠ .nlf ∧ ModuleType.fr ≠ .nlf := by decide

/-- TableRowsPartitionTheWords: rows of each of the three forms. -/
theorem test_witness_TableRowsPartitionTheWords :
    (⟨"LFSR.RESET", .lfsr, 0b1000, 0b1000⟩ : TableRow) ∈ tableRows ∧
      (⟨"FR.ILLEGAL_111", .fr, 0b0111, 0b1111⟩ : TableRow) ∈ tableRows ∧
      (⟨"NLF.EVAL", .nlf, 0, 0⟩ : TableRow) ∈ tableRows := by decide

/-- OperandsDenoteExactlyTheirBits: both sides of each bound for `N = 4`. -/
theorem test_witness_OperandsDenoteExactlyTheirBits :
    operandVec 4 (.num 0) = some 0 ∧ operandVec 4 (.num 15) = some 15 ∧ operandVec 4 (.num 16) = none ∧
      operandVec 4 (.num (-1)) = none ∧ operandVec 4 (.bits (b4 1 0 0 0)) = some 1 ∧
      operandVec 4 (.bits [true, false, false]) = none ∧
      operandVec 4 (.bits [true, false, false, false, false]) = none := by decide

/-- StepRunsTheDecodedCommand: a command at the index, and the end of the program. -/
theorem test_witness_StepRunsTheDecodedCommand :
    (State.reset.present { target := .cg, cmd := 0b0000 }).program[0]? = some { target := .cg, cmd := 0b0000 } ∧
      State.reset.program.length ≤ State.reset.pc := by decide

/-- PlacedTableWordIsTheNextCommand: the smallest and the largest word of 4 bits, and the row of no bits. -/
theorem test_witness_PlacedTableWordIsTheNextCommand :
    decodeTableWord 4 0 = some .lfsrNop ∧ decodeTableWord 4 15 = some (.lfsrReset 0b111) ∧
      decodeTableWord 0 0 = some (.nlfEval (.num 0)) := by decide

/-- NopHoldsAllState. -/
theorem test_witness_NopHoldsAllState :
    ∀ i ∈ [Instr.lfsrNop, .cgNop, .frNop], i = .lfsrNop ∨ i = .cgNop ∨ i = .frNop := by decide

/-- LfsrStepEmitsThenShifts: initialized, hardware's view, model's view not initialized; `N = 1` with its only legal
mask; `N = 2`; an odd number of taps. -/
theorem test_witness_LfsrStepEmitsThenShifts :
    (lfsr4 6).lfsr.init = true ∧ hardware.view = .hardware ∧ hardware.lfsr.init = false ∧
      State.reset.lfsr.init = false ∧ State.reset.view = .model ∧ LegalTaps (1#1) ∧ 1 < 2 ∧
      parity (0b111#3) = true := by decide

/-- StepMovesPositionsTowardZero: `N = 1`, and the positions 0 and 2 of `N = 4`. -/
theorem test_witness_StepMovesPositionsTowardZero : 1 ≤ 1 ∧ 0 + 1 < 4 ∧ 2 + 1 < 4 := by decide

/-- LfsrLoadWritesItsOperand: an instance that was reset, the largest operand, the first one too wide, and the load that
completes. -/
theorem test_witness_LfsrLoadWritesItsOperand :
    State.reset.lfsr.wasReset = true ∧ operandVec State.reset.lfsr.cfg.N (.num 15) = some 15 ∧
      (Operand.num 16).fits State.reset.lfsr.cfg.N = false ∧
      leaves (exec (.lfsrLoad (.num 15)) State.reset) (fun _ => true) = true := by decide

/-- LfsrLoadRandomWritesTheDraw: the largest draw, after and before the first reset. -/
theorem test_witness_LfsrLoadRandomWritesTheDraw :
    operandVec State.reset.lfsr.cfg.N (.num 15) = some 15 ∧ State.reset.lfsr.wasReset = true ∧
      operandVec neverReset.lfsr.cfg.N (.num 15) = some 15 ∧ neverReset.lfsr.wasReset = false := by decide

/-- LfsrEvalReturnsTheFunction, in both views. -/
theorem test_witness_LfsrEvalReturnsTheFunction :
    (lfsr4 6).lfsr.init = true ∧ hardware.view = .hardware ∧ hardware.lfsr.init = false := by decide

/-- NlfEvalReturnsTheFunction: the smallest and the largest input. -/
theorem test_witness_NlfEvalReturnsTheFunction :
    operandVec State.reset.nlf.cfg.N (.num 0) = some 0 ∧ operandVec State.reset.nlf.cfg.N (.num 15) = some 15 := by
  decide

/-- FunctionIsTheXorOfItsMonomials: monomials that are not empty, one of them listed twice. -/
theorem test_witness_FunctionIsTheXorOfItsMonomials :
    ∀ M ∈ [0b0011#4, 0b0100#4, 0b0011#4], M ≠ 0#4 := by decide

/-- FunctionIgnoresOrderAndRepetition: two monomials exchanged, and a position listed again. -/
theorem test_witness_FunctionIgnoresOrderAndRepetition :
    List.Perm [0b0001#4, 0b0110#4] [0b0110#4, 0b0001#4] ∧ ∀ p : Int, p ∈ [0, 2] ↔ p ∈ [2, 0, 2] := by
  refine ⟨by decide, fun p => ?_⟩
  simp only [List.mem_cons, List.not_mem_nil, or_false]
  omega

/-- DegreeOneFunctionsAreLinear: the first and the last position. -/
theorem test_witness_DegreeOneFunctionsAreLinear : (∀ i ∈ [0, 3], i < 4) ∧ 1 ≤ 1 := by decide

/-- CgSetStateWritesAllThree: an instance that was reset, three seeds that fit, and one that does not in each place. -/
theorem test_witness_CgSetStateWritesAllThree :
    State.reset.cg.wasReset = true ∧ operandVec State.reset.cg.cfg.N (.num 0) = some 0 ∧ operandVec State.reset.cg.cfg.N (.num 15) = some 15 ∧
      operandVec State.reset.cg.cfg.N (.bits (b4 0 1 1 0)) = some 6 ∧
      (Operand.num 16).fits State.reset.cg.cfg.N = false := by decide

/-- CgStepReadsTableThenStepsAll: initialized, and the model's view not initialized. -/
theorem test_witness_CgStepReadsTableThenStepsAll :
    (cg4 1 3 6).cg.init = true ∧ State.reset.cg.init = false ∧ State.reset.view = .model := by decide

/-- CgEvalForetellsStep, CgIndexIsInRange, CgSingleInputTables: an initialized `CG`, and the tables of R89. -/
theorem test_witness_CgEvalForetellsStep :
    (cg4 1 3 6).cg.init = true ∧
      ({ State.reset with cg := ⟨⟨4, 0b0011, 0b1001, 0b1011, 0x96⟩, 1, 3, 6, true, true⟩ } : State).cg.cfg.TT = 0x96 := by
  decide

/-- CgKeystreamRestartsAndRepeats: two states of one configuration, seeds that fit, and periods of the three registers
(15, 15 and 3, from the vectors L2-LFSR-3, L2-LFSR-4 and the cycles of taps 0, 1, 3). -/
theorem test_witness_CgKeystreamRestartsAndRepeats :
    (cg4 1 3 6).cg.cfg = State.reset.cg.cfg ∧ (cg4 1 3 6).cg.wasReset = true ∧ State.reset.cg.wasReset = true ∧
       (Operand.num 15).fits (cg4 1 3 6).cg.cfg.N = true ∧
      (stepR (0b0011#4))^[15] (1#4) = 1#4 ∧ (stepR (0b1001#4))^[15] (1#4) = 1#4 ∧ (stepR (0b1011#4))^[3] (6#4) = 6#4 := by
  decide

/-- CgZeroSeeds: an instance that was reset, a seed for register 1, and the table of its last clause. -/
theorem test_witness_CgZeroSeeds :
    State.reset.cg.wasReset = true ∧ operandVec State.reset.cg.cfg.N (.num 15) = some 15 ∧ State.reset.cg.cfg.TT = 0xC5 := by decide

/-- CgRegistersAreIndependent. -/
theorem test_witness_CgRegistersAreIndependent :
    State.reset.cg.wasReset = true ∧ operandVec State.reset.cg.cfg.N (.num 1) = some 1 ∧ operandVec State.reset.cg.cfg.N (.num 3) = some 3 ∧
      operandVec State.reset.cg.cfg.N (.num 6) = some 6 := by decide

/-- FrStepFiltersThenSteps and FrEvalReturnsTheFilter: initialized, hardware's view, model's view before any reset; a legal
mask, a state that is not zero, and monomials that are not empty. -/
theorem test_witness_FrStepFiltersThenSteps :
    (fr4 9).fr.init = true ∧ hardware.view = .hardware ∧ frNever.fr.init = false ∧ frNever.view = .model ∧
      LegalTaps (0b0011#4) ∧ 1#4 ≠ 0#4 ∧ ∀ M ∈ [0b0011#4, 0b0100#4, 0b1011#4], M ≠ 0#4 := by decide

/-- FrResetTakesTheDraw and LastResetDrawStays: draws that fit, the smallest and the largest. -/
theorem test_witness_LastResetDrawStays :
    (∀ r ∈ ([(0b111, .num 0), (0b000, .bits (b4 0 1 1 0))] : List (OpCode × Operand)),
        r.2.fits frNever.fr.cfg.N = true) ∧
      operandVec frNever.fr.cfg.N (.num 15) = some 15 := by decide

/-- FrFollowsLfsr: an `LFSR` and an `FR` of one configuration and state. -/
theorem test_witness_FrFollowsLfsr :
    ({ lfsrWith 4 0b0011 9 [0b0001] with fr := ⟨⟨4, 0b0011, [0b0001]⟩, 9, true⟩ } : State).lfsr =
        ⟨⟨4, 0b0011, [0b0001]⟩, 9, true, true⟩ ∧
      ({ lfsrWith 4 0b0011 9 [0b0001] with fr := ⟨⟨4, 0b0011, [0b0001]⟩, 9, true⟩ } : State).fr =
        ⟨⟨4, 0b0011, [0b0001]⟩, 9, true⟩ := by decide

/-- FrKeystreamIsPurelyPeriodic: a legal configuration, initialized, with the period 15 of L2-LFSR-3. -/
theorem test_witness_FrKeystreamIsPurelyPeriodic :
    (fr4 1).fr.cfg.Legal ∧ (fr4 1).fr.init = true ∧ (stepR (fr4 1).fr.cfg.T)^[15] (fr4 1).fr.S = (fr4 1).fr.S := by
  decide

/-- ZeroStateLocksUp: an instance that was reset, zero spelled both ways. -/
theorem test_witness_ZeroStateLocksUp :
    State.reset.lfsr.wasReset = true ∧ operandVec State.reset.lfsr.cfg.N (.num 0) = some 0 ∧
      operandVec State.reset.lfsr.cfg.N (.bits (b4 0 0 0 0)) = some 0 := by decide

/-- StepIsAPermutation: `N = 1` and `N = 4`, tap 0 present. -/
theorem test_witness_StepIsAPermutation :
    (1 ≤ 1 ∧ (1#1).getLsbD 0 = true) ∧ 1 ≤ 4 ∧ (0b1011#4).getLsbD 0 = true := by decide

/-- OutputsFollowTheRecurrence. -/
theorem test_witness_OutputsFollowTheRecurrence :
    1 ≤ State.reset.lfsr.cfg.N ∧ State.reset.lfsr.wasReset = true ∧
      operandVec State.reset.lfsr.cfg.N (.num 6) = some 6 := by decide

/-- UninitializedReadsByView: the model's view, each instance not initialized; and the hardware's. -/
theorem test_witness_UninitializedReadsByView :
    frNever.view = .model ∧ frNever.lfsr.init = false ∧ frNever.cg.init = false ∧ frNever.fr.init = false ∧
      hardware.view = .hardware := by decide

/-- ReservedOpsFaultInTheModel and ReservedOpsCompleteInHardware: a state of each view. -/
theorem test_witness_ReservedOps : State.reset.view = .model ∧ hardware.view = .hardware := by decide

/-- OperandsOfAnotherWidthAreRefused: each operand alone too wide. -/
theorem test_witness_OperandsOfAnotherWidthAreRefused :
    (Operand.num 16).fits State.reset.lfsr.cfg.N = false ∧ (Operand.bits [true]).fits State.reset.cg.cfg.N = false ∧
      (Operand.num 15).fits State.reset.cg.cfg.N = true ∧ (Operand.num (-1)).fits State.reset.nlf.cfg.N = false := by
  decide

/-- FaultsRecordTheirCause: a reserved word and a read that fault, and a step that does (P5). -/
theorem test_witness_FaultsRecordTheirCause :
    exec .frIllegal111 State.reset = .fault (.illegalCommand .fr 0b111 0) ∧
      exec .cgEval State.reset = .fault (.uninitialized .cg .eval 0) ∧
      step (State.reset.present { target := .lfsr, cmd := 0b0001 }) = .fault (.uninitialized .lfsr .step 0) :=
  ⟨rfl, rfl, rfl⟩

/-- WellFormedCommandsStopOnlyByTheirRule: a command that completes, one that is reserved, one that reads. -/
theorem test_witness_WellFormedCommandsStopOnlyByTheirRule :
    (Instr.lfsrLoad (.num 15)).wellFormed ⟨4, 4, 4, 4⟩ = true ∧ Instr.cgIllegal111.wellFormed ⟨4, 4, 4, 4⟩ = true ∧
      Instr.frEval.wellFormed ⟨4, 4, 4, 4⟩ = true := by decide

/-- TapSetsAreChecked: the ends of the range, and each of the three ways to fail; the smallest and the largest mask, and the
two ways a mask fails. -/
theorem test_witness_TapSetsAreChecked :
    ((∀ p ∈ ([3, 0] : List Int), 0 ≤ p ∧ p < 4) ∧ (0 : Int) ∈ ([3, 0] : List Int) ∧ ([3, 0] : List Int).Nodup) ∧
      (¬(∀ p ∈ ([0, 4] : List Int), 0 ≤ p ∧ p < 4)) ∧ (¬(0 : Int) ∈ ([1, 3] : List Int)) ∧
      (¬([0, 1, 1] : List Int).Nodup) ∧
      (1 < 2 ^ 4 ∧ (1 : Nat).testBit 0 = true) ∧ (15 < 2 ^ 4 ∧ (15 : Nat).testBit 0 = true) ∧
      (¬(17 < 2 ^ 4 ∧ (17 : Nat).testBit 0 = true)) ∧ (¬(14 < 2 ^ 4 ∧ (14 : Nat).testBit 0 = true)) := by decide

/-- MonomialsAreChecked: monomials in range, and one whose second position is not, after a good one. -/
theorem test_witness_MonomialsAreChecked :
    (∀ m ∈ ([[0, 3], []] : List (List Int)), ∀ p ∈ m, 0 ≤ p ∧ p < 4) ∧ (∀ q ∈ ([0] : List Int), 0 ≤ q ∧ q < 4) ∧
      (¬(0 ≤ (4 : Int) ∧ (4 : Int) < 4)) ∧ (¬(0 ≤ (-1 : Int) ∧ (-1 : Int) < 4)) := by decide

/-- TruthTablesAreChecked: a table, one entry too few, one entry that is no bit. -/
theorem test_witness_TruthTablesAreChecked :
    (([1, 0, 1, 0, 0, 0, 1, 1] : List Int).length = 8 ∧ ∀ b ∈ ([1, 0, 1, 0, 0, 0, 1, 1] : List Int), b = 0 ∨ b = 1) ∧
      (¬([1, 0, 1, 0, 0, 0, 1] : List Int).length = 8) ∧
      (¬∀ b ∈ ([1, 0, 1, 0, 0, 0, 1, 2] : List Int), b = 0 ∨ b = 1) := by decide

/-- ElaborationAcceptsOrReportsTheFirstFailure: both sides of the length check, each tap set's check, and the table's. -/
theorem test_witness_ElaborationAcceptsOrReportsTheFirstFailure :
    (0 : Int) < 1 ∧ legalTapSpec 4 (.positions [1]) = false ∧ legalTapSpec 4 (.positions [0, 3]) = true ∧
      legalTapSpec 4 (.mask 0b0010) = false ∧ legalTapSpec 4 (.mask 0b1111) = true ∧
      legalTapSpec 4 (.mask 17) = false ∧ legalTable [1, 0, 1] = false ∧
      legalTable [0, 1, 1, 1, 1, 1, 1, 0] = true := by decide

/-- The hypotheses on monomials of the same statement: a position out of range, reported; and each check passed. -/
theorem test_witness_ElaborationAcceptsOrReportsTheFirstFailure_monomials :
    elabMonomials 4 0 [[0], [3, 4]] = .error (.invalidMonomial 1 4) ∧ (¬(0 ≤ (4 : Int) ∧ (4 : Int) < 4)) ∧
      elabMonomials 4 0 [[0], [3, 2]] = .ok [0b0001, 0b1100] ∧ elabTaps 4 0 (.positions [3, 0]) = .ok 0b1001 ∧
      elabTaps 4 1 (.mask 0b0011) = .ok 0b0011 ∧ elabTaps 4 2 (.mask 1) = .ok 1 ∧
      elabTable [1, 0, 1, 0, 0, 0, 1, 1] = .ok 0xC5 := ⟨rfl, by decide, rfl, rfl, rfl, rfl, rfl⟩

/-- PowerOnReadsFaultUntilTheFirstReset: parameters that elaborate, the smallest length among them, and commands that
complete from power-on, no reset of the `LFSR` among them. -/
theorem test_witness_PowerOnReadsFaultUntilTheFirstReset :
    elabLfsr ⟨1, .positions [0], []⟩ = .ok ⟨1, 1, []⟩ ∧ elabNlf ⟨4, [[0, 1]]⟩ = .ok ⟨4, [0b0011]⟩ ∧
      elabCg ⟨4, .mask 0b0011, .mask 0b1001, .positions [0, 1, 3], [1, 0, 1, 0, 0, 0, 1, 1]⟩ =
        .ok ⟨4, 0b0011, 0b1001, 0b1011, 0xC5⟩ ∧
      elabFr ⟨4, .positions [0, 1], [[2]]⟩ = .ok ⟨4, 0b0011, [0b0100]⟩ ∧
      leaves (execAll [.lfsrLoad (.num 1), .cgReset 0]
        (powerOn ⟨1, 1, []⟩ ⟨4, [0b0011]⟩ ⟨4, 0b0011, 0b1001, 0b1011, 0xC5⟩ ⟨4, 0b0011, [0b0100]⟩ .model []))
        (fun t => decide (t.pc = 2)) = true := ⟨rfl, rfl, rfl, rfl, rfl⟩

/-- InitializedMarkersFollowTheirRule: instances not yet reset, and operands that fit. -/
theorem test_witness_InitializedMarkersFollowTheirRule :
    neverReset.lfsr.wasReset = false ∧ neverReset.cg.wasReset = false ∧
      (Operand.num 15).fits neverReset.lfsr.cfg.N = true ∧ (Operand.num 0).fits neverReset.cg.cfg.N = true := by decide

/-- ConfigurationIsReadOnly, InitializedMarkersFollowTheirRule, ResultPortFollowsTheCommand: a command, and a step, that
completes. -/
theorem test_witness_ConfigurationIsReadOnly :
    leaves (exec (.lfsrReset 0b101) (lfsr4 6)) (fun t => !t.lfsr.init) = true ∧
      leaves (step ((fr4 9).present { target := .fr, cmd := 0b1000, rnd := .num 15 })) (fun t => t.fr.init) = true ∧
      leaves (exec (.nlfEval (.num 3)) State.reset) (fun t => !t.res.bit) = true := by decide

/-- RegistersAreWrittenOnlyByTheirCommands: a command of another register that completes in the model's view, and one
that is not reserved in the hardware's. -/
theorem test_witness_RegistersAreWrittenOnlyByTheirCommands :
    (leaves (exec .lfsrEval (lfsr4 6)) (fun _ => true) = true ∧ (lfsr4 6).view = .model) ∧
      leaves (exec .cgEval hardware) (fun _ => true) = true ∧ Instr.cgEval.isIllegal = false := by decide

/-- InstancesShareNothing: two states that agree on the `LFSR` and the view and differ elsewhere, the counter included, for a
command that uses no free value; the `NLF` of both too; and a command that uses one. -/
theorem test_witness_InstancesShareNothing :
    leaves (exec .lfsrStep (lfsr4 6)) (fun _ => true) = true ∧
      leaves (exec (.nlfEval (.num 3)) (lfsr4 6)) (fun _ => true) = true ∧
      ({ lfsr4 6 with fr := frNever.fr, pc := 7, drawn := 9 } : State).lfsr = (lfsr4 6).lfsr ∧
      ({ lfsr4 6 with fr := frNever.fr, pc := 7, drawn := 9 } : State).nlf = (lfsr4 6).nlf ∧
      ({ lfsr4 6 with fr := frNever.fr, pc := 7, drawn := 9 } : State).view = (lfsr4 6).view ∧
      (lfsr4 6).usesFreeValues .lfsrStep = false ∧ (lfsr4 6).usesFreeValues (.lfsrReset 0) = true := by decide

/-- StepsEmitBeforeTheyUpdate: each instance initialized. -/
theorem test_witness_StepsEmitBeforeTheyUpdate :
    (lfsr4 6).lfsr.init = true ∧ (cg4 1 3 6).cg.init = true ∧ (fr4 9).fr.init = true := by decide

/-- OutputPortsShowTheStateHeld: readable and not, in each view; and each command of its clauses completes somewhere. -/
theorem test_witness_OutputPortsShowTheStateHeld :
    ((lfsr4 6).lfsr.init = true ∧ hardware.view = .hardware) ∧
      (frNever.lfsr.init = false ∧ frNever.cg.init = false ∧ frNever.fr.init = false ∧ frNever.view = .model) ∧
      (leaves (exec .lfsrEval (lfsr4 6)) (fun _ => true) = true ∧
        leaves (exec .cgEval (cg4 1 3 6)) (fun _ => true) = true ∧ leaves (exec .frEval (fr4 9)) (fun _ => true) = true) ∧
      (leaves (exec (.lfsrReset 0) (lfsr4 6)) (fun _ => true) = true ∧
        leaves (exec (.cgReset 7) (cg4 1 3 6)) (fun _ => true) = true) := by decide

/-- The loads of the same statement, at an instance that was reset. -/
theorem test_witness_OutputPortsShowTheStateHeld_loads :
    State.reset.lfsr.wasReset = true ∧ State.reset.cg.wasReset = true ∧
      leaves (exec (.lfsrLoad (.num 15)) State.reset) (fun _ => true) = true ∧
      leaves (exec (.lfsrLoadRandom (.num 15)) State.reset) (fun _ => true) = true ∧
      leaves (exec (.cgSetState (.num 0) (.num 15) (.num 6)) State.reset) (fun _ => true) = true ∧
      leaves (exec (.frReset 0 (.num 15)) State.reset) (fun _ => true) = true := by decide

/-- L2-CG-1, R30: the three state ports, the index and the keystream bit, and nothing of them before a load. -/
theorem test_cg_ports :
    cgState0O (cg4 1 3 6) = some 1 ∧ cgState1O (cg4 1 3 6) = some 3 ∧ cgState2O (cg4 1 3 6) = some 6 ∧
      cgIdxO (cg4 1 3 6) = some 6 ∧ cgKsO (cg4 1 3 6) = some true ∧ cgIdxO State.reset = none := by decide

/-- NopsMayBeDropped: a run with `NOP` cycles that completes. -/
theorem test_witness_NopsMayBeDropped :
    leaves (execAll [.lfsrLoad (.num 6), .lfsrNop, .lfsrStep, .cgNop] State.reset) (fun _ => true) = true := by decide

/-- StepKeepsTheInvariant: a state that meets the invariant, its step completes, and the index is inside the program. -/
theorem test_witness_StepKeepsTheInvariant :
    ((lfsr4 6).present { target := .lfsr, cmd := 0b0001 }).Inv ∧
      leaves (step ((lfsr4 6).present { target := .lfsr, cmd := 0b0001 })) (fun t => decide (t.pc = 1)) = true := by
  decide

end Sys2Proof.Machine
end

section
/-! PROOF. What `LFSR.STEP` and `LFSR.LOAD` do, once each as a lemma about `exec`, and the output ports of an
initialized `LFSR` (40_lfsr.md R64, R65; 10_state.md R28). -/

namespace Sys2Proof.Machine

/-! ### Decoding (R51) -/

theorem decode_lfsrStep {p : PortDrive} (ht : p.target = .lfsr) (hc : p.cmd = 0b0001#4) : decode p = .lfsrStep := by
  simp only [decode, ht, decodeLfsr, hc]; rfl

theorem decode_lfsrLoad {p : PortDrive} (ht : p.target = .lfsr) (hc : p.cmd = 0b0010#4) : decode p = .lfsrLoad p.d := by
  simp only [decode, ht, decodeLfsr, hc]; rfl

/-! ### `LFSR.STEP` (R64) -/

theorem exec_lfsrStep_of_canRead {s : State} (h : s.lfsr.init = true ∨ s.view = .hardware) :
    exec .lfsrStep s = .next ((s.setLfsr s.lfsr.stepped).retireWith .lfsr (outBit s.lfsr.S)) :=
  reading_of_canRead h _ _ _

theorem exec_lfsrStep_of_model {s : State} (hi : s.lfsr.init = false) (hv : s.view = .model) :
    exec .lfsrStep s = .fault (.uninitialized .lfsr .step s.pc) :=
  reading_of_model hi hv _ _ _

/-! ### `LFSR.LOAD` (R65) -/

theorem exec_lfsrLoad_of_wasReset {s : State} {v : Operand} {w : BitVec s.lfsr.cfg.N} (hr : s.lfsr.wasReset = true)
    (hw : operandVec s.lfsr.cfg.N v = some w) : exec (.lfsrLoad v) s = .next (s.setLfsr (s.lfsr.loaded w)).retire :=
  (withOperand_some hw _).trans (by rw [giveLfsr_of_wasReset hr])

theorem exec_lfsrLoad_of_not_fits {s : State} {v : Operand} (h : v.fits s.lfsr.cfg.N = false) :
    exec (.lfsrLoad v) s = .refused (.invalidLength (.operand .d v s.pc)) :=
  withOperand_none (operandVec_of_not_fits h) _

/-- A second load overwrites the first. -/
@[simp] theorem Lfsr.loaded_loaded (l : Lfsr) (v w : BitVec l.cfg.N) : (l.loaded v).loaded w = l.loaded w := rfl

theorem execAll_pair {i j : Instr} {s t u : State} (hi : exec i s = .next t) (hj : exec j t = .next u) :
    execAll [i, j] s = .next u := by
  rw [execAll_cons_next hi, execAll_cons_next hj, execAll_nil]

theorem execAll_lfsrLoad_lfsrStep {s : State} {v : Operand} {w : BitVec s.lfsr.cfg.N} (hr : s.lfsr.wasReset = true)
    (hw : operandVec s.lfsr.cfg.N v = some w) :
    ∃ u, execAll [.lfsrLoad v, .lfsrStep] s = .next u ∧ u.lfsr = (s.lfsr.loaded w).stepped :=
  ⟨_, execAll_pair (exec_lfsrLoad_of_wasReset hr hw) (exec_lfsrStep_of_canRead (.inl rfl)), rfl⟩

theorem execAll_lfsrLoad_lfsrLoad {s : State} {v : Operand} {w : BitVec s.lfsr.cfg.N} (hr : s.lfsr.wasReset = true)
    (hw : operandVec s.lfsr.cfg.N v = some w) :
    ∃ u, execAll [.lfsrLoad v, .lfsrLoad v] s = .next u ∧ u.lfsr = s.lfsr.loaded w := by
  have hfirst := exec_lfsrLoad_of_wasReset hr hw
  have hsecond := exec_lfsrLoad_of_wasReset (s := (s.setLfsr (s.lfsr.loaded w)).retire) hr hw
  exact ⟨_, execAll_pair hfirst hsecond, s.lfsr.loaded_loaded w w⟩

/-! ### Output ports (R25, R28) -/

theorem observable_of_canRead {α : Type} {s : State} {init : Bool} (h : init = true ∨ s.view = .hardware) (v : α) :
    observable s init v = some v := by
  simp [observable, (canRead_iff s init).mpr h]

theorem lfsrStateO_of_init {s : State} (h : s.lfsr.init = true) : lfsrStateO s = some s.lfsr.S :=
  observable_of_canRead (.inl h) _

theorem lfsrOutO_of_init {s : State} (h : s.lfsr.init = true) : lfsrOutO s = some (outBit s.lfsr.S) :=
  observable_of_canRead (.inl h) _

/-! ### Zero as an operand (R65) -/

theorem operandVec_zero (N : Nat) : operandVec N (.num 0) = some 0#N := by
  rw [operandVec_num, if_pos ⟨le_refl 0, by positivity⟩, Int.toNat_zero]

end Sys2Proof.Machine
end

section
/-! PROOF. The step of a register at the corner cases of 40_lfsr.md R64: the zero state, the state of all ones, and the
mask of tap 0 alone, where a step is a rotation. -/

namespace Sys2Proof.Machine

variable {n : Nat}

/-! ### Parity and feedback -/

theorem xorBelow_of_false {f : Nat → Bool} {n : Nat} (h : ∀ i, i < n → f i = false) : xorBelow f n = false := by
  induction n with
  | zero => rfl
  | succ n ih => rw [xorBelow_succ, ih fun i hi => h i (by omega), h n (by omega), Bool.xor_false]

@[simp] theorem parity_zero : parity 0#n = false := xorBelow_of_false fun _ _ => BitVec.getLsbD_zero

@[simp] theorem feedback_zero (T : BitVec n) : feedback T 0#n = false := by
  rw [feedback, BitVec.zero_and, parity_zero]

@[simp] theorem feedback_allOnes (T : BitVec n) : feedback T (BitVec.allOnes n) = parity T := by
  rw [feedback, BitVec.allOnes_and]

/-- With tap 0 alone the feedback bit is the output bit. -/
theorem feedback_one (S : BitVec n) : feedback 1#n S = outBit S := by
  cases n with
  | zero => rw [BitVec.eq_nil S]; rfl
  | succ m =>
    have htail : xorBelow (fun i => (S &&& 1#(m + 1)).getLsbD (i + 1)) m = false :=
      xorBelow_of_false fun i _ => by simp
    rw [feedback, parity, xorBelow_head, htail]
    simp [outBit]

/-! ### The zero state and the state of all ones -/

@[simp] theorem outBit_zero : outBit 0#n = false := BitVec.getLsbD_zero

/-- Corner case (2): the zero state is a fixed point under every mask. -/
@[simp] theorem stepR_zero (T : BitVec n) : stepR T 0#n = 0#n :=
  BitVec.eq_of_getLsbD_eq fun i _ => by simp [stepR_getLsbD]

/-- Corner case (4): with an odd number of taps the state of all ones is a fixed point. -/
theorem stepR_allOnes {T : BitVec n} (h : parity T = true) : stepR T (BitVec.allOnes n) = BitVec.allOnes n := by
  refine BitVec.eq_of_getLsbD_eq fun i hi => ?_
  rw [stepR_getLsbD, feedback_allOnes, h, BitVec.getLsbD_allOnes, BitVec.getLsbD_allOnes]
  by_cases hlast : i + 1 < n
  · simp [hi, hlast]
  · simp [hi, show i + 1 = n by omega]

/-! ### Tap 0 alone: a rotation -/

theorem stepR_one_getLsbD (S : BitVec n) {i : Nat} (hi : i < n) :
    (stepR 1#n S).getLsbD i = S.getLsbD ((i + 1) % n) := by
  rw [stepR_getLsbD, feedback_one]
  by_cases hlast : i + 1 < n
  · rw [if_pos hlast, Nat.mod_eq_of_lt hlast]
  · have htop : i + 1 = n := by omega
    rw [if_neg hlast, if_pos htop, htop, Nat.mod_self, outBit]

theorem stepR_one_iterate_getLsbD (S : BitVec n) (k : Nat) {i : Nat} (hi : i < n) :
    ((stepR 1#n)^[k] S).getLsbD i = S.getLsbD ((i + k) % n) := by
  induction k generalizing i with
  | zero => rw [Function.iterate_zero_apply, Nat.add_zero, Nat.mod_eq_of_lt hi]
  | succ k ih =>
    rw [Function.iterate_succ_apply', stepR_one_getLsbD _ hi, ih (Nat.mod_lt _ (by omega)), Nat.mod_add_mod,
      Nat.add_right_comm, Nat.add_assoc]

/-- Corner case (3): `n` steps rotate the register once around. -/
theorem stepR_one_iterate_self (S : BitVec n) : (stepR 1#n)^[n] S = S :=
  BitVec.eq_of_getLsbD_eq fun i hi => by
    rw [stepR_one_iterate_getLsbD S n hi, Nat.add_mod_right, Nat.mod_eq_of_lt hi]

/-- The only legal tap mask of a register of one bit. -/
theorem legalTaps_one {T : BitVec 1} (h : LegalTaps T) : T = 1#1 := by
  refine BitVec.eq_of_getLsbD_eq fun i hi => ?_
  obtain rfl : i = 0 := by omega
  exact h

end Sys2Proof.Machine
end

section
/-! PROOF. The statements of 40_lfsr.md about `STEP` and `LOAD`, assembled from the lemmas above. -/

namespace Sys2Proof.Machine

/-- Settles O9: the outcomes of `exec`, then each corner case of R64 from the lemma about `stepR` that names it. One step
of a one-bit register is a whole rotation. -/
theorem lfsrStepEmitsThenShifts : Obligations.LfsrStepEmitsThenShifts := by
  refine ⟨fun p => decode_lfsrStep, fun s => exec_lfsrStep_of_canRead, fun s => exec_lfsrStep_of_model,
    fun T S hT => ?_, fun n T => ⟨outBit_zero, stepR_zero T⟩,
    fun n S _ => ⟨fun i => stepR_one_getLsbD S, stepR_one_iterate_self S⟩,
    fun n T => ⟨feedback_allOnes T, stepR_allOnes⟩, by decide⟩
  obtain rfl := legalTaps_one hT
  exact ⟨rfl, stepR_one_iterate_self S⟩

/-- Settles O11: the state after a completed load is known in full, and the ports, the next `STEP` and a second load are
read off it. -/
theorem lfsrLoadWritesItsOperand : Obligations.LfsrLoadWritesItsOperand := by
  refine ⟨fun p => decode_lfsrLoad, fun s v w hr hw => ?_, fun s v => exec_lfsrLoad_of_not_fits, operandVec_zero, rfl⟩
  have hload := exec_lfsrLoad_of_wasReset hr hw
  refine ⟨hload, fun t ht => ?_, execAll_lfsrLoad_lfsrStep hr hw, execAll_lfsrLoad_lfsrLoad hr hw⟩
  obtain rfl : (s.setLfsr (s.lfsr.loaded w)).retire = t := Host.Outcome.next.inj (hload.symm.trans ht)
  exact ⟨by rw [lfsrStateO_of_init rfl]; rfl, lfsrOutO_of_init rfl⟩

end Sys2Proof.Machine
end

section
/-! PROOF. Products of monomials and their sum, the function of a list of monomials (41_nlf.md R73 to R75). -/

namespace Sys2Proof.Machine

variable {n : Nat}

/-! ### The product of a monomial (R73) -/

/-- `(x AND M) = M`, position by position. -/
theorem monomial_eq_true_iff (M x : BitVec n) :
    monomial M x = true ↔ ∀ i : Nat, i < n → M.getLsbD i = true → x.getLsbD i = true := by
  rw [monomial, beq_iff_eq, BitVec.eq_of_getLsbD_eq_iff]
  simp only [BitVec.getLsbD_and, Bool.and_eq_right_iff_imp]

theorem monomial_eq_decide (M x : BitVec n) :
    monomial M x = decide (∀ i : Nat, i < n → M.getLsbD i = true → x.getLsbD i = true) :=
  Bool.eq_iff_iff.mpr ((monomial_eq_true_iff M x).trans decide_eq_true_iff.symm)

/-! ### The sum of a list (R74, R75) -/

@[simp] theorem nlfF_nil (x : BitVec n) : nlfF [] x = false := rfl

@[simp] theorem nlfF_cons (M : BitVec n) (F : List (BitVec n)) (x : BitVec n) :
    nlfF (M :: F) x = (monomial M x ^^ nlfF F x) := rfl

/-- R75: a pair of equal monomials cancels. -/
theorem nlfF_cons_cons_self (M : BitVec n) (F : List (BitVec n)) (x : BitVec n) : nlfF (M :: M :: F) x = nlfF F x := by
  rw [nlfF_cons, nlfF_cons, ← Bool.xor_assoc, Bool.xor_self, Bool.false_xor]

/-- The value is the parity of the number of products that are 1. -/
theorem nlfF_eq_true_iff_countP_monomial (F : List (BitVec n)) (x : BitVec n) :
    nlfF F x = true ↔ (F.countP fun M => monomial M x) % 2 = 1 := by
  induction F with
  | nil => simp
  | cons M F ih =>
    rw [nlfF_cons, List.countP_cons]
    cases monomial M x with
    | false => simpa using ih
    | true =>
      rw [Bool.true_xor, Bool.not_eq_true', ← Bool.not_eq_true, ih, if_pos rfl]
      omega

/-- R74, with or without monomials that have no position. -/
theorem nlfF_eq_true_iff (F : List (BitVec n)) (x : BitVec n) :
    nlfF F x = true ↔
      (F.countP fun M => decide (∀ i : Nat, i < n → M.getLsbD i = true → x.getLsbD i = true)) % 2 = 1 := by
  simp only [nlfF_eq_true_iff_countP_monomial, monomial_eq_decide]

/-- Settles O16: the count of R74 and the cancellation of R75. -/
theorem functionIsTheXorOfItsMonomials : Obligations.FunctionIsTheXorOfItsMonomials :=
  fun _ F x => ⟨fun _ => nlfF_eq_true_iff F x, fun M => nlfF_cons_cons_self M F x, nlfF_nil x⟩

end Sys2Proof.Machine
end

section
/-! PROOF. What `CG.SET_STATE` and `CG.STEP` do, once each as lemmas about `exec`, the keystream bit in numbers, and the
two statements of 42_combiner.md R82 and R83 assembled from them. -/

namespace Sys2Proof.Machine

/-! ### Decoding (R51) -/

theorem decode_cgSetState {p : PortDrive} (ht : p.target = .cg) (hc : p.cmd = 0b0010#4) :
    decode p = .cgSetState p.k0 p.k1 p.k2 := by
  simp only [decode, ht, decodeCg, hc]; rfl

theorem decode_cgStep {p : PortDrive} (ht : p.target = .cg) (hc : p.cmd = 0b0001#4) : decode p = .cgStep := by
  simp only [decode, ht, decodeCg, hc]; rfl

/-! ### `CG.SET_STATE` (R82) -/

section
variable {s : State} {k0 k1 k2 : Operand}

theorem exec_cgSetState_of_operandVec {w0 w1 w2 : BitVec s.cg.cfg.N} (h0 : operandVec s.cg.cfg.N k0 = some w0)
    (h1 : operandVec s.cg.cfg.N k1 = some w1) (h2 : operandVec s.cg.cfg.N k2 = some w2) :
    exec (.cgSetState k0 k1 k2) s = .next (s.giveCg w0 w1 w2).retire :=
  (withOperand_some h0 _).trans ((withOperand_some h1 _).trans (withOperand_some h2 _))

theorem exec_cgSetState_of_wasReset {w0 w1 w2 : BitVec s.cg.cfg.N} (hr : s.cg.wasReset = true)
    (h0 : operandVec s.cg.cfg.N k0 = some w0) (h1 : operandVec s.cg.cfg.N k1 = some w1)
    (h2 : operandVec s.cg.cfg.N k2 = some w2) :
    exec (.cgSetState k0 k1 k2) s = .next (s.setCg (s.cg.loaded w0 w1 w2)).retire := by
  rw [exec_cgSetState_of_operandVec h0 h1 h2, giveCg_of_wasReset hr]

theorem exec_cgSetState_of_not_fits_k0 (h0 : k0.fits s.cg.cfg.N = false) :
    exec (.cgSetState k0 k1 k2) s = .refused (.invalidLength (.operand .k0 k0 s.pc)) :=
  withOperand_none (operandVec_of_not_fits h0) _

theorem exec_cgSetState_of_not_fits_k1 (h0 : k0.fits s.cg.cfg.N = true) (h1 : k1.fits s.cg.cfg.N = false) :
    exec (.cgSetState k0 k1 k2) s = .refused (.invalidLength (.operand .k1 k1 s.pc)) := by
  obtain ⟨w0, hw0⟩ := operandVec_of_fits h0
  exact (withOperand_some hw0 _).trans (withOperand_none (operandVec_of_not_fits h1) _)

theorem exec_cgSetState_of_not_fits_k2 (h0 : k0.fits s.cg.cfg.N = true) (h1 : k1.fits s.cg.cfg.N = true)
    (h2 : k2.fits s.cg.cfg.N = false) :
    exec (.cgSetState k0 k1 k2) s = .refused (.invalidLength (.operand .k2 k2 s.pc)) := by
  obtain ⟨w0, hw0⟩ := operandVec_of_fits h0
  obtain ⟨w1, hw1⟩ := operandVec_of_fits h1
  exact (withOperand_some hw0 _).trans
    ((withOperand_some hw1 _).trans (withOperand_none (operandVec_of_not_fits h2) _))

/-- The first seed that does not fit, in the order of the checks, is the one reported (log entry 13). -/
theorem exec_cgSetState_of_not_fits
    (h : k0.fits s.cg.cfg.N = false ∨ k1.fits s.cg.cfg.N = false ∨ k2.fits s.cg.cfg.N = false) :
    ∃ e, exec (.cgSetState k0 k1 k2) s = .refused (.invalidLength e) := by
  cases h0 : k0.fits s.cg.cfg.N with
  | false => exact ⟨_, exec_cgSetState_of_not_fits_k0 h0⟩
  | true =>
    cases h1 : k1.fits s.cg.cfg.N with
    | false => exact ⟨_, exec_cgSetState_of_not_fits_k1 h0 h1⟩
    | true =>
      have h2 : k2.fits s.cg.cfg.N = false := by simpa [h0, h1] using h
      exact ⟨_, exec_cgSetState_of_not_fits_k2 h0 h1 h2⟩

end

/-! ### `CG.STEP` (R83) -/

theorem exec_cgStep_of_canRead {s : State} (h : s.cg.init = true ∨ s.view = .hardware) :
    exec .cgStep s = .next ((s.setCg s.cg.stepped).retireWith .cg (cgBit s.cg)) :=
  reading_of_canRead h _ _ _

theorem exec_cgStep_of_model {s : State} (hi : s.cg.init = false) (hv : s.view = .model) :
    exec .cgStep s = .fault (.uninitialized .cg .step s.pc) :=
  reading_of_model hi hv _ _ _

/-! ### The index and the keystream bit (R83, R85) -/

section
variable {n : Nat}

theorem cgIndex_toNat_le_seven (S0 S1 S2 : BitVec n) : (cgIndex S0 S1 S2).toNat ≤ 7 :=
  Nat.le_of_lt_succ (cgIndex S0 S1 S2).isLt

/-- Corner case (4): equal registers read the first or the last entry of the table. -/
theorem cgIndex_self_toNat (S : BitVec n) : (cgIndex S S S).toNat = 0 ∨ (cgIndex S S S).toNat = 7 := by
  rw [cgIndex_toNat]
  cases outBit S with
  | false => exact .inl rfl
  | true => exact .inr rfl

theorem cgBit_eq_getLsbD (g : Cg) :
    cgBit g = g.cfg.TT.getLsbD (4 * (outBit g.S0).toNat + 2 * (outBit g.S1).toNat + (outBit g.S2).toNat) := by
  rw [cgBit, ttEntry, cgIndex_toNat]

/-- Corner case (3): a register in its lock-up state stays there. -/
theorem stepR_iterate_zero (T : BitVec n) (k : Nat) : (stepR T)^[k] 0#n = 0#n :=
  Function.iterate_fixed (stepR_zero T) k

end

/-! ### The statements -/

/-- Settles O20: the three seeds are written together, or the first that does not fit is reported; a zero seed is a fixed
point of the step. -/
theorem cgSetStateWritesAllThree : Obligations.CgSetStateWritesAllThree :=
  ⟨fun _ => decode_cgSetState, fun _ _ _ _ _ _ _ => exec_cgSetState_of_wasReset,
    fun _ _ _ _ => exec_cgSetState_of_not_fits, fun N T => ⟨operandVec_zero N, stepR_zero T, outBit_zero⟩,
    by decide⟩

/-- Settles O21: the outcomes of `exec` with the keystream bit in numbers, then the corner cases of R83. -/
theorem cgStepReadsTableThenStepsAll : Obligations.CgStepReadsTableThenStepsAll := by
  refine ⟨fun p => decode_cgStep, fun s hi => ?_, fun s => exec_cgStep_of_model,
    fun n S0 S1 S2 => ⟨cgIndex_toNat_le_seven S0 S1 S2, cgIndex_self_toNat S0⟩,
    fun n k T => by rw [stepR_iterate_zero, outBit_zero], fun g hg => ?_⟩
  · rw [exec_cgStep_of_canRead (.inl hi), cgBit_eq_getLsbD]
    rfl
  · subst hg
    decide

end Sys2Proof.Machine
end

section
/-! PROOF. The step of a register under a legal tap mask forgets nothing, so the lock-up state has no other predecessor
(40_lfsr.md R64, 43_filtered.md R92 corner (3)). -/

namespace Sys2Proof.Machine

variable {n : Nat}

/-- The feedback bit with position 0, the one a step shifts out, taken apart from the others. -/
theorem feedback_succ (T S : BitVec (n + 1)) :
    feedback T S = ((S.getLsbD 0 && T.getLsbD 0) ^^ xorBelow (fun i => S.getLsbD (i + 1) && T.getLsbD (i + 1)) n) := by
  simp only [feedback, parity, xorBelow_head, BitVec.getLsbD_and]

theorem stepR_getLsbD_of_lt (T S : BitVec n) {i : Nat} (hi : i + 1 < n) :
    (stepR T S).getLsbD i = S.getLsbD (i + 1) := by
  rw [stepR_getLsbD, if_pos hi]

theorem stepR_getLsbD_last (T S : BitVec (n + 1)) : (stepR T S).getLsbD n = feedback T S := by
  rw [stepR_getLsbD, if_neg (lt_irrefl _), if_pos rfl]

/-- The positions above 0 are still there after a step; with tap 0 present the feedback bit then gives position 0. -/
theorem stepR_injective {T : BitVec n} (hT : LegalTaps T) : Function.Injective (stepR T) := by
  intro S S' h
  cases n with
  | zero => exact Subsingleton.elim S S'
  | succ m =>
    have hhigh : ∀ i, i < m → S.getLsbD (i + 1) = S'.getLsbD (i + 1) := fun i hi => by
      rw [← stepR_getLsbD_of_lt T S (by omega), ← stepR_getLsbD_of_lt T S' (by omega), h]
    have hfeedback : feedback T S = feedback T S' := by rw [← stepR_getLsbD_last T S, ← stepR_getLsbD_last T S', h]
    have hlow : S.getLsbD 0 = S'.getLsbD 0 := by
      rw [feedback_succ, feedback_succ, xorBelow_congr fun i hi => by rw [hhigh i hi], hT, Bool.and_true,
        Bool.and_true] at hfeedback
      exact Bool.xor_left_inj.mp hfeedback
    refine BitVec.eq_of_getLsbD_eq fun i hi => ?_
    cases i with
    | zero => exact hlow
    | succ i => exact hhigh i (by omega)

theorem stepR_ne_zero {T S : BitVec n} (hT : LegalTaps T) (hS : S ≠ 0#n) : stepR T S ≠ 0#n :=
  fun h => hS (stepR_injective hT (h.trans (stepR_zero T).symm))

end Sys2Proof.Machine
end

section
/-! PROOF. The function of an `NLF` at one position, and at the zero state (41_nlf.md R73, 43_filtered.md R92). -/

namespace Sys2Proof.Machine

variable {n : Nat}

@[simp] theorem maskOf_singleton (N : Nat) (p : Int) : maskOf N [p] = BitVec.twoPow N p.toNat := BitVec.or_zero

@[simp] theorem nlfF_singleton (M x : BitVec n) : nlfF [M] x = monomial M x := Bool.xor_false _

/-- The monomial of one position is that position. -/
theorem monomial_twoPow {i : Nat} (hi : i < n) (x : BitVec n) : monomial (BitVec.twoPow n i) x = x.getLsbD i := by
  rw [Bool.eq_iff_iff, monomial_eq_true_iff]
  simp only [BitVec.getLsbD_twoPow, Bool.and_eq_true, decide_eq_true_eq]
  exact ⟨fun h => h i hi ⟨hi, rfl⟩, fun hx j _ hj => hj.2 ▸ hx⟩

/-- At the zero state every monomial that has a position is 0. -/
theorem monomial_zero_right {M : BitVec n} (hM : M ≠ 0#n) : monomial M 0#n = false := by
  rw [monomial, BitVec.zero_and, beq_eq_false_iff_ne]
  exact hM.symm

theorem nlfF_zero_right {F : List (BitVec n)} (hF : ∀ M ∈ F, M ≠ 0#n) : nlfF F 0#n = false := by
  induction F with
  | nil => rfl
  | cons M F ih =>
    obtain ⟨hM, hrest⟩ := List.forall_mem_cons.mp hF
    rw [nlfF_cons, monomial_zero_right hM, ih hrest, Bool.xor_false]

end Sys2Proof.Machine
end

section
/-! PROOF. What `FR.STEP` does, as lemmas about `decode` and `exec`, and the statement of 43_filtered.md R92 assembled
from them. -/

namespace Sys2Proof.Machine

theorem decode_frStep {p : PortDrive} (ht : p.target = .fr) (hc : p.cmd = 0b0001#4) : decode p = .frStep := by
  simp only [decode, ht, decodeFr, hc]; rfl

theorem exec_frStep_of_canRead {s : State} (h : s.fr.init = true ∨ s.view = .hardware) :
    exec .frStep s = .next ((s.setFr s.fr.stepped).retireWith .fr (nlfF s.fr.cfg.F s.fr.S)) :=
  reading_of_canRead h _ _ _

theorem exec_frStep_of_model {s : State} (hi : s.fr.init = false) (hv : s.view = .model) :
    exec .frStep s = .fault (.uninitialized .fr .step s.pc) :=
  reading_of_model hi hv _ _ _

/-- Settles O29: the outcomes of `exec`, then each corner case of R92 from the lemma about `nlfF` or `stepR` that names
it. -/
theorem frStepFiltersThenSteps : Obligations.FrStepFiltersThenSteps := by
  refine ⟨fun p => decode_frStep, fun s hi => exec_frStep_of_canRead (.inl hi), fun s => exec_frStep_of_model,
    fun n F S T => ⟨nlfF_nil S, fun hn => ?_, stepR_zero T, stepR_ne_zero, nlfF_zero_right⟩, by decide⟩
  rw [nlfF_singleton, maskOf_singleton]
  exact monomial_twoPow hn S

end Sys2Proof.Machine
end

section
/-! PROOF. The result of a `STEP` against the next-bit output of the cycle before it, once per module type, and the
statement of 70_reset_and_hazards.md R119 from two such steps in a row. -/

namespace Sys2Proof.Machine

variable {s : State}

/-! ### Output ports of an initialized `CG` and `FR` (R30, R31) -/

theorem cgKsO_of_init (h : s.cg.init = true) : cgKsO s = some (cgBit s.cg) :=
  observable_of_canRead (.inl h) _

theorem frYO_of_init (h : s.fr.init = true) : frYO s = some (nlfF s.fr.cfg.F s.fr.S) :=
  observable_of_canRead (.inl h) _

/-! ### A `STEP` returns the bit its port showed, and leaves its instance initialized -/

theorem exec_lfsrStep_returns_lfsrOutO (h : s.lfsr.init = true) :
    ∃ t, exec .lfsrStep s = .next t ∧ t.res = ⟨true, outBit s.lfsr.S⟩ ∧ lfsrOutO s = some t.res.bit ∧
      t.lfsr.init = true :=
  ⟨_, exec_lfsrStep_of_canRead (.inl h), rfl, lfsrOutO_of_init h, h⟩

theorem exec_cgStep_returns_cgKsO (h : s.cg.init = true) :
    ∃ t, exec .cgStep s = .next t ∧ t.res = ⟨true, cgBit s.cg⟩ ∧ cgKsO s = some t.res.bit ∧ t.cg.init = true :=
  ⟨_, exec_cgStep_of_canRead (.inl h), rfl, cgKsO_of_init h, h⟩

theorem exec_frStep_returns_frYO (h : s.fr.init = true) :
    ∃ t, exec .frStep s = .next t ∧ t.res = ⟨true, nlfF s.fr.cfg.F s.fr.S⟩ ∧ frYO s = some t.res.bit ∧
      t.fr.init = true :=
  ⟨_, exec_frStep_of_canRead (.inl h), rfl, frYO_of_init h, h⟩

/-- Settles O54: each `STEP` returns the bit its port showed, and since the instance stays initialized the next one does
too. The keystream bit of the `CG` is the table entry in numbers. -/
theorem stepsEmitBeforeTheyUpdate : Obligations.StepsEmitBeforeTheyUpdate := by
  refine ⟨fun s hi => ?lfsr, fun s hi => ?cg, fun s hi => ?fr⟩
  case lfsr =>
    obtain ⟨t, ht, hres, hout, hinit⟩ := exec_lfsrStep_returns_lfsrOutO hi
    obtain ⟨u, hu, -, hnext, -⟩ := exec_lfsrStep_returns_lfsrOutO hinit
    exact ⟨t, u, ht, hres, hout, hu, hnext⟩
  case cg =>
    obtain ⟨t, ht, hres, hout, hinit⟩ := exec_cgStep_returns_cgKsO hi
    obtain ⟨u, hu, -, hnext, -⟩ := exec_cgStep_returns_cgKsO hinit
    rw [cgBit_eq_getLsbD] at hres
    exact ⟨t, u, ht, hres, hout, hu, hnext⟩
  case fr =>
    obtain ⟨t, ht, hres, hout, hinit⟩ := exec_frStep_returns_frYO hi
    obtain ⟨u, hu, -, hnext, -⟩ := exec_frStep_returns_frYO hinit
    exact ⟨t, u, ht, hres, hout, hu, hnext⟩

end Sys2Proof.Machine
end

section
/-! PROOF. The decoder against the encoder and the op code table: a command word is a reset word or one of the eight
op codes with bit 3 clear (30_encoding.md R50 to R52, R61, R62). -/

namespace Sys2Proof.Machine

/-! ### Command words (R50) -/

/-- R52: bit 3 set makes a word a reset with its op bits; the other eight words are op codes. -/
theorem commandWord_cases (c : CommandWord) :
    (∃ op : OpCode, c = 1#1 ++ op) ∨ c = 0b0000#4 ∨ c = 0b0001#4 ∨ c = 0b0010#4 ∨ c = 0b0011#4 ∨ c = 0b0100#4 ∨
      c = 0b0101#4 ∨ c = 0b0110#4 ∨ c = 0b0111#4 := by
  revert c; decide

theorem resetWord_getLsbD_three (op : OpCode) : (1#1 ++ op : CommandWord).getLsbD 3 = true := by
  revert op; decide

@[simp] theorem opField_resetWord (op : OpCode) : opField (1#1 ++ op) = op := by
  revert op; decide

/-! ### Decoding by module type (R51, R52) -/

section
variable {p : PortDrive}

theorem decode_of_lfsr (ht : p.target = .lfsr) : decode p = decodeLfsr p := by simp only [decode, ht]

theorem decode_of_cg (ht : p.target = .cg) : decode p = decodeCg p := by simp only [decode, ht]

theorem decode_of_fr (ht : p.target = .fr) : decode p = decodeFr p := by simp only [decode, ht]

theorem decode_of_nlf (ht : p.target = .nlf) : decode p = .nlfEval p.x := by simp only [decode, ht]

theorem decodeLfsr_of_bit3 (h : p.cmd.getLsbD 3 = true) : decodeLfsr p = .lfsrReset (opField p.cmd) := by
  simp only [decodeLfsr, h]

theorem decodeCg_of_bit3 (h : p.cmd.getLsbD 3 = true) : decodeCg p = .cgReset (opField p.cmd) := by
  simp only [decodeCg, h]

theorem decodeFr_of_bit3 (h : p.cmd.getLsbD 3 = true) : decodeFr p = .frReset (opField p.cmd) p.rnd := by
  simp only [decodeFr, h]

theorem decode_lfsrLoadRandom (ht : p.target = .lfsr) (hc : p.cmd = 0b0011#4) : decode p = .lfsrLoadRandom p.rnd := by
  simp only [decode, ht, decodeLfsr, hc]; rfl

theorem decodeLfsr_resetWord {op : OpCode} (h : p.cmd = 1#1 ++ op) : decodeLfsr p = .lfsrReset op := by
  rw [decodeLfsr_of_bit3 (h ▸ resetWord_getLsbD_three op), h, opField_resetWord]

theorem decodeCg_resetWord {op : OpCode} (h : p.cmd = 1#1 ++ op) : decodeCg p = .cgReset op := by
  rw [decodeCg_of_bit3 (h ▸ resetWord_getLsbD_three op), h, opField_resetWord]

theorem decodeFr_resetWord {op : OpCode} (h : p.cmd = 1#1 ++ op) : decodeFr p = .frReset op p.rnd := by
  rw [decodeFr_of_bit3 (h ▸ resetWord_getLsbD_three op), h, opField_resetWord]

end

/-! ### The word and the module type of what is decoded -/

section
variable (p : PortDrive)

theorem decodeLfsr_word : (decodeLfsr p).module = .lfsr ∧ (decodeLfsr p).word = p.cmd := by
  rcases commandWord_cases p.cmd with ⟨op, h⟩ | h | h | h | h | h | h | h | h
  · rw [decodeLfsr_resetWord h, h]; exact ⟨rfl, rfl⟩
  all_goals simp only [decodeLfsr, h]; exact ⟨rfl, rfl⟩

theorem decodeCg_word : (decodeCg p).module = .cg ∧ (decodeCg p).word = p.cmd := by
  rcases commandWord_cases p.cmd with ⟨op, h⟩ | h | h | h | h | h | h | h | h
  · rw [decodeCg_resetWord h, h]; exact ⟨rfl, rfl⟩
  all_goals simp only [decodeCg, h]; exact ⟨rfl, rfl⟩

theorem decodeFr_word : (decodeFr p).module = .fr ∧ (decodeFr p).word = p.cmd := by
  rcases commandWord_cases p.cmd with ⟨op, h⟩ | h | h | h | h | h | h | h | h
  · rw [decodeFr_resetWord h, h]; exact ⟨rfl, rfl⟩
  all_goals simp only [decodeFr, h]; exact ⟨rfl, rfl⟩

theorem decode_module : (decode p).module = p.target := by
  cases ht : p.target with
  | lfsr => rw [decode_of_lfsr ht, (decodeLfsr_word p).1]
  | nlf => rw [decode_of_nlf ht]; rfl
  | cg => rw [decode_of_cg ht, (decodeCg_word p).1]
  | fr => rw [decode_of_fr ht, (decodeFr_word p).1]

theorem decode_word (hn : p.target ≠ .nlf) : (decode p).word = p.cmd := by
  cases ht : p.target with
  | lfsr => rw [decode_of_lfsr ht, (decodeLfsr_word p).2]
  | nlf => exact absurd ht hn
  | cg => rw [decode_of_cg ht, (decodeCg_word p).2]
  | fr => rw [decode_of_fr ht, (decodeFr_word p).2]

end

/-! ### Encoding (R51, R54) -/

@[simp] theorem encode_cmd (i : Instr) : (encode i).cmd = i.word := by
  cases i <;> rfl

/-- The decoder reads from the drive of a command the command with its operands. -/
theorem decode_encode (i : Instr) : decode (encode i) = i := by
  cases i with
  | lfsrReset op => exact decodeLfsr_resetWord rfl
  | cgReset op => exact decodeCg_resetWord rfl
  | frReset op rnd => exact decodeFr_resetWord rfl
  | lfsrLoad v => exact decode_lfsrLoad rfl rfl
  | lfsrLoadRandom rnd => exact decode_lfsrLoadRandom rfl rfl
  | cgSetState k0 k1 k2 => exact decode_cgSetState rfl rfl
  | _ => rfl

/-- Settles O1: the round trip, and the word that a drive's command has. -/
theorem decodeAndEncodeAgree : Obligations.DecodeAndEncodeAgree :=
  ⟨decode_encode, fun p => ⟨decode_module p, fun hn => (encode_cmd _).trans (decode_word p hn)⟩⟩

/-- Settles O2: bit 3 first, then each column's eight op codes. -/
theorem decodeFollowsOpCodeTable : Obligations.DecodeFollowsOpCodeTable := by
  refine ⟨fun p ht => ?lfsr, fun p ht => ?cg, fun p ht => ?fr⟩
  case lfsr =>
    rw [decode_of_lfsr ht]
    refine ⟨decodeLfsr_of_bit3, ?_, ?_, ?_, ?_, ?_, ?_, ?_, ?_⟩
    all_goals intro hc; simp only [decodeLfsr, hc]; rfl
  case cg =>
    rw [decode_of_cg ht]
    refine ⟨decodeCg_of_bit3, ?_, ?_, ?_, ?_, ?_, ?_, ?_, ?_⟩
    all_goals intro hc; simp only [decodeCg, hc]; rfl
  case fr =>
    rw [decode_of_fr ht]
    refine ⟨decodeFr_of_bit3, ?_, ?_, ?_, ?_, ?_, ?_, ?_, ?_⟩
    all_goals intro hc; simp only [decodeFr, hc]; rfl

/-- Settles O3: the examples are read off the decoder; a reset's word keeps its op bits. -/
theorem specEncodingExamplesDecode : Obligations.SpecEncodingExamplesDecode := by
  refine ⟨⟨rfl, rfl⟩, fun k0 k1 k2 => ⟨decode_cgSetState rfl rfl, rfl⟩, ⟨rfl, rfl⟩,
    fun op => ⟨decodeLfsr_resetWord rfl, decodeCg_resetWord rfl, fun r => decodeFr_resetWord rfl⟩,
    ⟨rfl, rfl, fun r => rfl⟩, fun m hm => ?_,
    fun v => decode_lfsrLoad rfl rfl, rfl⟩
  cases m with
  | nlf => exact absurd rfl hm
  | _ => rfl

/-! ### The rows of the table (R61) -/

/-- The word of a command selects its row and no other row of its module type. -/
theorem selectedRows_word (i : Instr) : (selectedRows i.module i.word).map TableRow.mnemonic = [i.mnemonic] := by
  cases i with
  | lfsrReset op | cgReset op => revert op; decide
  | frReset op rnd => simp only [Instr.module, Instr.word, Instr.mnemonic]; revert op; decide
  | _ => simp only [Instr.module, Instr.word, Instr.mnemonic]; decide

/-- The one row of `NLF` is selected in every cycle. -/
theorem selectedRows_nlf (c : CommandWord) : (selectedRows .nlf c).map TableRow.mnemonic = ["NLF.EVAL"] := by
  revert c; decide

/-- Settles O4: the masks row by row; a drive's word is that of the command decoded, whose row is the one selected. -/
theorem tableRowsPartitionTheWords : Obligations.TableRowsPartitionTheWords := by
  refine ⟨by decide, by decide, fun p => ?_⟩
  by_cases hn : p.target = .nlf
  · rw [decode_of_nlf hn, hn]
    exact selectedRows_nlf p.cmd
  · rw [← selectedRows_word, decode_module, decode_word p hn]

end Sys2Proof.Machine
end

section
/-! PROOF. What every completed command keeps and what it adds, read off the inversion `exec_completed`: the
configuration, the program and the view (10_state.md R20), the initialized markers (R25), the instances and registers
of others (R21 to R23, R26), the result port (30_encoding.md R53); and the invariant of a run from them. -/

namespace Sys2Proof.Machine

variable {i : Instr} {s t : State}

/-! ### Configuration, program, view and index (R20, R58, R118) -/

theorem exec_lfsr_cfg (h : exec i s = .next t) : t.lfsr.cfg = s.lfsr.cfg := by cases exec_completed h <;> simp

theorem exec_nlf (h : exec i s = .next t) : t.nlf = s.nlf := by cases exec_completed h <;> rfl

theorem exec_cg_cfg (h : exec i s = .next t) : t.cg.cfg = s.cg.cfg := by cases exec_completed h <;> simp

theorem exec_fr_cfg (h : exec i s = .next t) : t.fr.cfg = s.fr.cfg := by cases exec_completed h <;> rfl

theorem exec_program (h : exec i s = .next t) : t.program = s.program := by cases exec_completed h <;> rfl

theorem exec_view (h : exec i s = .next t) : t.view = s.view := by cases exec_completed h <;> rfl

theorem exec_pc (h : exec i s = .next t) : t.pc = s.pc + 1 := by cases exec_completed h <;> rfl

/-! ### A step is a command or an idle cycle (R58; log entry 7) -/

theorem step_of_fetch {p : PortDrive} (h : s.program[s.pc]? = some p) : step s = exec (decode p) s := by
  simp only [step, State.fetch, h]

theorem step_of_ended (h : s.program.length ≤ s.pc) : step s = .next s.idle := by
  simp only [step, State.fetch, List.getElem?_eq_none h]

/-- Every step, whatever its outcome, is the command at the index or an idle cycle. -/
theorem step_cases (s : State) :
    (∃ p, s.program[s.pc]? = some p ∧ step s = exec (decode p) s) ∨ step s = .next s.idle := by
  cases h : s.program[s.pc]? with
  | some p => exact .inl ⟨p, rfl, step_of_fetch h⟩
  | none => exact .inr (step_of_ended (List.getElem?_eq_none_iff.mp h))

/-- Settles O6: the command at the index, and the idle cycle past the end. -/
theorem stepRunsTheDecodedCommand : Obligations.StepRunsTheDecodedCommand :=
  ⟨fun _ _ => step_of_fetch, fun _ => step_of_ended⟩

/-- Settles O7: the word placed is fetched at the index. -/
theorem placedTableWordIsTheNextCommand : Obligations.PlacedTableWordIsTheNextCommand := by
  intro s nbits w i hi
  obtain rfl : decode (tableDrive nbits w) = i := Option.some.inj hi
  exact ⟨step_of_fetch (fetch_present s (tableDrive nbits w)), _, rfl⟩

/-- Settles O49: a completed command keeps them all, and an idle cycle does too. -/
theorem configurationIsReadOnly : Obligations.ConfigurationIsReadOnly := by
  refine ⟨fun i s t h => ⟨exec_lfsr_cfg h, congrArg Nlf.cfg (exec_nlf h), exec_cg_cfg h, exec_fr_cfg h, exec_program h,
    exec_view h, exec_pc h⟩, fun s t h => ?_⟩
  rcases step_cases s with ⟨p, -, hp⟩ | hidle
  · rw [hp] at h
    exact ⟨exec_lfsr_cfg h, congrArg Nlf.cfg (exec_nlf h), exec_cg_cfg h, exec_fr_cfg h, exec_program h, exec_view h⟩
  · obtain rfl := Host.Outcome.next.inj (hidle.symm.trans h)
    exact ⟨rfl, rfl, rfl, rfl, rfl, rfl⟩

/-! ### The initialized markers (R25, R115) -/

theorem exec_lfsr_init_iff (h : exec i s = .next t) : t.lfsr.init = true ↔
    (s.lfsr.wasReset = true ∧ ((∃ v, i = .lfsrLoad v) ∨ ∃ r, i = .lfsrLoadRandom r)) ∨
      (s.lfsr.init = true ∧ ∀ op, i ≠ .lfsrReset op) := by
  cases exec_completed h <;> simp

theorem exec_lfsr_wasReset_iff (h : exec i s = .next t) :
    t.lfsr.wasReset = true ↔ s.lfsr.wasReset = true ∨ ∃ op, i = .lfsrReset op := by
  cases exec_completed h <;> simp

theorem exec_cg_init_iff (h : exec i s = .next t) : t.cg.init = true ↔
    (s.cg.wasReset = true ∧ ∃ a b c, i = .cgSetState a b c) ∨ (s.cg.init = true ∧ ∀ op, i ≠ .cgReset op) := by
  cases exec_completed h <;> simp

theorem exec_cg_wasReset_iff (h : exec i s = .next t) :
    t.cg.wasReset = true ↔ s.cg.wasReset = true ∨ ∃ op, i = .cgReset op := by
  cases exec_completed h <;> simp

theorem exec_fr_init_iff (h : exec i s = .next t) :
    t.fr.init = true ↔ (∃ op r, i = .frReset op r) ∨ s.fr.init = true := by
  cases exec_completed h <;> simp

/-- A command leaves an instance booted: only a reset, or a load after one, can set `init`. -/
theorem exec_booted (h : exec i s = .next t) (hb : s.Booted) : t.Booted := by
  obtain ⟨hlfsr, hcg⟩ := hb
  refine ⟨fun hi => ?_, fun hi => ?_⟩
  · rw [exec_lfsr_wasReset_iff h]
    rcases (exec_lfsr_init_iff h).mp hi with ⟨hr, -⟩ | ⟨hs, -⟩
    · exact .inl hr
    · exact .inl (hlfsr hs)
  · rw [exec_cg_wasReset_iff h]
    rcases (exec_cg_init_iff h).mp hi with ⟨hr, -⟩ | ⟨hs, -⟩
    · exact .inl hr
    · exact .inl (hcg hs)

/-! ### The result port and the results (R53, R126) -/

/-- A completed command returns one bit, or is an `NLF` evaluation whose bit is read, or adds nothing. -/
theorem exec_result_cases (h : exec i s = .next t) :
    (i.drivesResult = true ∧ i.module ≠ .nlf ∧ ∃ b, t.res = resultBit b ∧ t.results = s.results ++ [(i.module, b)]) ∨
    (i.drivesResult = false ∧ i.module = .nlf ∧ t.res = noResult ∧ ∃ b, t.results = s.results ++ [(.nlf, b)]) ∨
    (i.drivesResult = false ∧ i.module ≠ .nlf ∧ t.res = noResult ∧ t.results = s.results) := by
  cases exec_completed h with
  | lfsrStep | lfsrEval | cgStep | cgEval | frStep | frEval => exact .inl ⟨rfl, nofun, _, rfl, rfl⟩
  | nlfEval x w => exact .inr (.inl ⟨rfl, rfl, rfl, _, rfl⟩)
  | _ => exact .inr (.inr ⟨rfl, nofun, rfl, rfl⟩)

/-- Settles O53: the three ways a command ends. -/
theorem resultPortFollowsTheCommand : Obligations.ResultPortFollowsTheCommand := by
  intro i s t h
  rcases exec_result_cases h with ⟨hd, hm, b, hres, hnew⟩ | ⟨hd, hm, hres, b, hnew⟩ | ⟨hd, hm, hres, hnew⟩
  · simp [hd, hm, hres, hnew, resultBit]
  · simp [hd, hm, hres, hnew, noResult]
  · simp [hd, hm, hres, hnew, noResult]

/-- The module types of the results, one more for each command that adds a bit. -/
theorem exec_results_fst (h : exec i s = .next t) :
    t.results.map Prod.fst = s.results.map Prod.fst ++ if i.observesBit then [i.module] else [] := by
  rcases exec_result_cases h with ⟨hd, hm, b, -, hnew⟩ | ⟨hd, hm, -, b, hnew⟩ | ⟨hd, hm, -, hnew⟩
  all_goals simp [Instr.observesBit, hd, hm, hnew]

/-! ### The invariant (R16, R17, R58, R115, R126) -/

theorem exec_legal (h : exec i s = .next t) (hs : s.Legal) : t.Legal := by
  rwa [State.Legal, exec_lfsr_cfg h, exec_nlf h, exec_cg_cfg h, exec_fr_cfg h]

/-- The command at the index keeps the invariant: it runs one more drive of the program and records that drive's bit. -/
theorem exec_inv {p : PortDrive} (hp : s.program[s.pc]? = some p) (h : exec (decode p) s = .next t) (hs : s.Inv) :
    t.Inv := by
  obtain ⟨hlegal, hbooted, -, hresults⟩ := hs
  have hlt : s.pc < s.program.length := (List.getElem?_eq_some_iff.mp hp).1
  refine ⟨exec_legal h hlegal, exec_booted h hbooted, ?_, ?_⟩
  · rw [exec_program h, exec_pc h]
    exact hlt
  · rw [exec_results_fst h, exec_program h, exec_pc h, List.take_add_one, hp, hresults, decode_module]
    cases hobs : (decode p).observesBit <;> simp [observes, hobs]

theorem idle_inv (hs : s.Inv) : s.idle.Inv := hs

/-- Settles O58: a step is the command at the index or an idle cycle, and each keeps the invariant. -/
theorem stepKeepsTheInvariant : Obligations.StepKeepsTheInvariant := by
  intro s t hs h
  rcases step_cases s with ⟨p, hp, hstep⟩ | hidle
  · exact exec_inv hp (hstep.symm.trans h) hs
  · obtain rfl := Host.Outcome.next.inj (hidle.symm.trans h)
    exact idle_inv hs

/-- Settles O57: the configurations of the vectors are legal, and nothing has run. -/
theorem resetMeetsTheInvariant : Obligations.ResetMeetsTheInvariant :=
  ⟨by decide, by decide, Nat.le_refl 0, rfl⟩

/-- Settles O56: the markers, the port and the index, field by field. -/
theorem resetLeavesTheMarkers : Obligations.ResetLeavesTheMarkers :=
  ⟨rfl, rfl, rfl, rfl, rfl, rfl, rfl, rfl⟩

end Sys2Proof.Machine
end

section
/-! PROOF. The step of a register in general: positions and numbers (20_memory.md R44), the outputs as a linear
recurrence (40_lfsr.md R70), and the cycles of a legal tap mask (R69). -/

namespace Sys2Proof.Machine

variable {n : Nat}

/-! ### Positions and numbers (R44) -/

/-- An XOR over positions is the parity of the number of ones. -/
theorem xorBelow_eq_true_iff (f : Nat → Bool) (n : Nat) :
    xorBelow f n = true ↔ ((List.range n).filter f).length % 2 = 1 := by
  induction n with
  | zero => simp
  | succ n ih =>
    rw [xorBelow_succ, List.range_succ, List.filter_append, List.length_append]
    cases hf : f n with
    | false => simpa [hf] using ih
    | true =>
      rw [Bool.xor_true, Bool.not_eq_true', ← Bool.not_eq_true, ih, List.filter_singleton, hf]
      simp only [cond_true, List.length_singleton]
      omega

theorem feedback_eq_true_iff (T S : BitVec n) :
    feedback T S = true ↔ ((List.range n).filter fun i => T.getLsbD i && S.getLsbD i).length % 2 = 1 := by
  have htapped : (S &&& T).getLsbD = fun i => T.getLsbD i && S.getLsbD i :=
    funext fun i => by rw [BitVec.getLsbD_and, Bool.and_comm]
  rw [feedback, parity, xorBelow_eq_true_iff, htapped]

/-- A step in numbers: half the state, and the feedback bit in the top position. -/
theorem stepR_toNat (T S : BitVec (n + 1)) : (stepR T S).toNat = S.toNat / 2 + (feedback T S).toNat * 2 ^ n := by
  have hlow : S.toNat / 2 < 2 ^ n := by have := S.isLt; omega
  have hshift : (S >>> 1).toNat = S.toNat / 2 := by rw [BitVec.toNat_ushiftRight, Nat.shiftRight_one]
  cases hfb : feedback T S with
  | false => simp [stepR, hfb, hshift]
  | true =>
    have htop : (BitVec.twoPow (n + 1) n).toNat = 2 ^ n :=
      BitVec.toNat_twoPow_of_lt (Nat.lt_succ_self n)
    have hstep : stepR T S = (S >>> 1) ||| BitVec.twoPow (n + 1) n := by
      simp [stepR, hfb, BitVec.twoPow]
    rw [hstep, BitVec.toNat_or, hshift, htop, Nat.or_comm, Bool.toNat_true, Nat.one_mul, Nat.add_comm (S.toNat / 2)]
    simpa using (Nat.two_pow_add_eq_or_of_lt hlow 1).symm

/-- Settles O10: the positions of a step, its top one the feedback bit, and the step as a number. -/
theorem stepMovesPositionsTowardZero : Obligations.StepMovesPositionsTowardZero := by
  intro n T S hn
  obtain ⟨m, rfl⟩ := Nat.exists_eq_add_of_le' hn
  rw [Nat.add_sub_cancel, stepR_getLsbD_last]
  exact ⟨fun i => stepR_getLsbD_of_lt T S, feedback_eq_true_iff T S, stepR_toNat T S⟩

/-! ### The outputs of successive steps (R70) -/

/-- After `t` steps position `i` holds the output of `i` steps later. -/
theorem stepR_iterate_getLsbD (T S : BitVec n) (t : Nat) {i : Nat} (hi : i < n) :
    ((stepR T)^[t] S).getLsbD i = outBit ((stepR T)^[t + i] S) := by
  induction i generalizing t with
  | zero => rfl
  | succ i ih =>
    rw [← stepR_getLsbD_of_lt T _ hi, ← Function.iterate_succ_apply' (stepR T), ih (t + 1) (by omega),
      Nat.add_right_comm]
    rfl

/-- The output after as many steps as the register is long is the feedback bit. -/
theorem outBit_iterate_recurrence (T S : BitVec n) (hn : 1 ≤ n) (t : Nat) :
    outBit ((stepR T)^[t + n] S) = xorBelow (fun i => T.getLsbD i && outBit ((stepR T)^[t + i] S)) n := by
  obtain ⟨m, rfl⟩ := Nat.exists_eq_add_of_le' hn
  calc outBit ((stepR T)^[t + (m + 1)] S)
      = ((stepR T)^[t + 1] S).getLsbD m := by
        rw [stepR_iterate_getLsbD T S (t + 1) (Nat.lt_succ_self m), Nat.add_right_comm]; rfl
    _ = feedback T ((stepR T)^[t] S) := by rw [Function.iterate_succ_apply', stepR_getLsbD_last]
    _ = xorBelow (fun i => T.getLsbD i && outBit ((stepR T)^[t + i] S)) (m + 1) :=
        xorBelow_congr fun i hi => by
          rw [BitVec.getLsbD_and, Bool.and_comm, stepR_iterate_getLsbD T S t hi]

/-! ### The step as a permutation (R69) -/

/-- The bit shifted out, from the state after the step. -/
theorem getLsbD_zero_of_stepR {T : BitVec (n + 1)} (hT : LegalTaps T) (S : BitVec (n + 1)) :
    S.getLsbD 0 = ((stepR T S).getLsbD n ^^ xorBelow (fun i => (stepR T S).getLsbD i && T.getLsbD (i + 1)) n) := by
  have hrest : xorBelow (fun i => (stepR T S).getLsbD i && T.getLsbD (i + 1)) n =
      xorBelow (fun i => S.getLsbD (i + 1) && T.getLsbD (i + 1)) n :=
    xorBelow_congr fun i hi => by rw [stepR_getLsbD_of_lt T S (by omega)]
  rw [hrest, stepR_getLsbD_last, feedback_succ, hT, Bool.and_true, Bool.xor_assoc, Bool.xor_self, Bool.xor_false]

/-- A register of one bit holds its value. -/
theorem stepR_eq_self {T : BitVec 1} (hT : LegalTaps T) (S : BitVec 1) : stepR T S = S := by
  obtain rfl := legalTaps_one hT
  exact stepR_one_iterate_self S

/-- There are finitely many states and no two have the same next one, so every state comes back. -/
theorem stepR_exists_period {T : BitVec n} (hT : LegalTaps T) (S : BitVec n) :
    ∃ p, 0 < p ∧ (stepR T)^[p] S = S :=
  (stepR_injective hT).mem_periodicPts S

theorem stepR_iterate_add_period {T S : BitVec n} {p : Nat} (h : (stepR T)^[p] S = S) (k : Nat) :
    (stepR T)^[k + p] S = (stepR T)^[k] S := by
  rw [Function.iterate_add_apply, h]

/-- Settles O36: injective on a finite set, so bijective with every state on a cycle. -/
theorem stepIsAPermutation : Obligations.StepIsAPermutation := by
  intro n T hn hT
  obtain ⟨m, rfl⟩ := Nat.exists_eq_add_of_le' hn
  refine ⟨Finite.injective_iff_bijective.mp (stepR_injective hT), fun S => ⟨fun i hi => ?high, ?low, fun hm => ?one⟩,
    fun S => ?cycle⟩
  case high => rw [stepR_getLsbD_of_lt T S hi]
  case low => exact getLsbD_zero_of_stepR hT S
  case one =>
    obtain rfl : m = 0 := by omega
    exact stepR_eq_self hT S
  case cycle =>
    obtain ⟨p, hp, hS⟩ := stepR_exists_period hT S
    exact ⟨p, hp, hS, fun k => by rw [stepR_iterate_add_period hS]⟩

end Sys2Proof.Machine
end

section
/-! PROOF. Masks and the function of a list of monomials: the bits of a mask (10_state.md R17, R18), order and
repetition (41_nlf.md R77), the empty monomial (R76) and functions of degree 1 (R79). -/

namespace Sys2Proof.Machine

variable {n : Nat}

/-! ### The bits of a mask (R17, R18) -/

@[simp] theorem maskOf_cons (N : Nat) (p : Int) (l : List Int) :
    maskOf N (p :: l) = BitVec.twoPow N p.toNat ||| maskOf N l := rfl

theorem maskOf_getLsbD (N : Nat) (l : List Int) (i : Nat) :
    (maskOf N l).getLsbD i = true ↔ i < N ∧ ∃ p ∈ l, p.toNat = i := by
  induction l with
  | nil => simp [maskOf]
  | cons p l ih =>
    simp only [maskOf_cons, BitVec.getLsbD_or, BitVec.getLsbD_twoPow, Bool.or_eq_true, ih, List.exists_mem_cons_iff,
      Bool.and_eq_true, decide_eq_true_eq, and_or_left]
    exact or_congr ⟨fun ⟨hN, hp⟩ => ⟨hp ▸ hN, hp⟩, fun ⟨hN, hp⟩ => ⟨hp ▸ hN, hp⟩⟩ Iff.rfl

/-! ### Order and repetition (R77) -/

theorem nlfF_perm {F G : List (BitVec n)} (h : F.Perm G) (x : BitVec n) : nlfF F x = nlfF G x := by
  rw [Bool.eq_iff_iff, nlfF_eq_true_iff_countP_monomial, nlfF_eq_true_iff_countP_monomial, h.countP_eq]

theorem maskOf_congr {N : Nat} {l l' : List Int} (h : ∀ p, p ∈ l ↔ p ∈ l') : maskOf N l = maskOf N l' :=
  BitVec.eq_of_getLsbD_eq fun i _ => by
    rw [Bool.eq_iff_iff, maskOf_getLsbD, maskOf_getLsbD]
    simp only [h]

/-- Settles O18: the value counts monomials, and a mask has the bits listed. -/
theorem functionIgnoresOrderAndRepetition : Obligations.FunctionIgnoresOrderAndRepetition :=
  ⟨fun _ _ _ x h => nlfF_perm h x, fun _ _ _ => maskOf_congr⟩

/-! ### The empty monomial (R76) -/

@[simp] theorem monomial_zero_left (x : BitVec n) : monomial 0#n x = true := by simp [monomial]

theorem monomial_at_zero (M : BitVec n) : monomial M 0#n = (M == 0#n) := by
  by_cases hM : M = 0#n
  · subst hM; simp
  · rw [monomial_zero_right hM, beq_false_of_ne hM]

/-- Settles O17: an empty monomial is satisfied by every input, and at the input 0 no other one is. -/
theorem emptyMonomialIsOne : Obligations.EmptyMonomialIsOne := by
  refine fun n F x => ⟨rfl, monomial_zero_left x, ?_, ?_, nlfF_eq_true_iff F x, ?_⟩
  · rw [nlfF_cons, monomial_zero_left, Bool.true_xor]
  · rw [nlfF_singleton, monomial_zero_left]
  · rw [nlfF_eq_true_iff_countP_monomial]
    simp only [monomial_at_zero]

/-! ### Functions of degree 1 (R79) -/

theorem nlfF_map_twoPow {is : List Nat} (his : ∀ i ∈ is, i < n) (x : BitVec n) :
    nlfF (is.map fun i => BitVec.twoPow n i) x = true ↔ (is.filter fun i => x.getLsbD i).length % 2 = 1 := by
  have hcount : (is.countP fun i => monomial (BitVec.twoPow n i) x) = is.countP fun i => x.getLsbD i :=
    List.countP_congr fun i hi => by rw [monomial_twoPow (his i hi)]
  rw [nlfF_eq_true_iff_countP_monomial, List.countP_map, ← List.countP_eq_length_filter, ← hcount]
  rfl

/-- Settles O19: each position's monomial is that position. -/
theorem degreeOneFunctionsAreLinear : Obligations.DegreeOneFunctionsAreLinear :=
  ⟨fun _ _ x his => nlfF_map_twoPow his x, fun _ x hn => (nlfF_singleton _ x).trans (monomial_twoPow hn x)⟩

end Sys2Proof.Machine
end

section
/-! PROOF. What an operand denotes (30_encoding.md R55, 20_memory.md R42). -/

namespace Sys2Proof.Machine

/-! ### Bit lists as numbers (R13) -/

theorem bitsNumber_cons (b : Bool) (l : List Bool) : bitsNumber (b :: l) = Nat.bit b (bitsNumber l) := by
  rw [Nat.bit_val, Nat.add_comm]; rfl

/-- Element `i` of a bit list is bit `i` of its number. -/
theorem bitsNumber_testBit (l : List Bool) (i : Nat) : (bitsNumber l).testBit i = l[i]?.getD false := by
  induction l generalizing i with
  | nil => simp [bitsNumber]
  | cons b l ih =>
    rw [bitsNumber_cons]
    cases i with
    | zero => rw [Nat.testBit_bit_zero]; rfl
    | succ i => rw [Nat.testBit_bit_succ, ih, List.getElem?_cons_succ]

theorem ofNat_bitsNumber_getLsbD {N : Nat} {l : List Bool} {i : Nat} (hl : l.length = N) (hi : i < N) :
    l[i]? = some ((BitVec.ofNat N (bitsNumber l)).getLsbD i) := by
  have hil : i < l.length := hl ▸ hi
  rw [BitVec.getLsbD_ofNat, bitsNumber_testBit, List.getElem?_eq_getElem hil]
  simp [hi]

/-! ### Integers and bit lists as operands (R55) -/

theorem operandVec_num_eq_some {N : Nat} {k : Int} {v : BitVec N} :
    operandVec N (.num k) = some v ↔ (v.toNat : Int) = k := by
  rw [operandVec_num]
  constructor
  · intro h
    split at h
    next hk =>
      obtain rfl := Option.some.inj h
      have hlt : k.toNat < 2 ^ N := by zify; omega
      rw [BitVec.toNat_ofNat, Nat.mod_eq_of_lt hlt]
      omega
    next => cases h
  · rintro rfl
    rw [if_pos ⟨Int.natCast_nonneg _, by exact_mod_cast v.isLt⟩, Int.toNat_natCast, BitVec.ofNat_toNat,
      BitVec.setWidth_eq]

theorem operandVec_bits_eq_some {N : Nat} {l : List Bool} {v : BitVec N} :
    operandVec N (.bits l) = some v ↔ l.length = N ∧ ∀ i : Nat, i < N → l[i]? = some (v.getLsbD i) := by
  rw [operandVec_bits]
  constructor
  · intro h
    split at h
    next hl =>
      obtain rfl := Option.some.inj h
      exact ⟨hl, fun i => ofNat_bitsNumber_getLsbD hl⟩
    next => cases h
  · rintro ⟨hl, hbits⟩
    rw [if_pos hl]
    refine congrArg some (BitVec.eq_of_getLsbD_eq fun i hi => ?_)
    exact Option.some.inj ((ofNat_bitsNumber_getLsbD hl hi).symm.trans (hbits i hi))

/-- Settles O5: what each spelling denotes, and when it denotes nothing. -/
theorem operandsDenoteExactlyTheirBits : Obligations.OperandsDenoteExactlyTheirBits :=
  ⟨fun _ _ _ => operandVec_num_eq_some, fun N k => by rw [operandVec_num, ite_eq_right_iff]; simp,
    fun _ _ _ => operandVec_bits_eq_some, fun N l => by rw [operandVec_bits, ite_eq_right_iff]; simp⟩

end Sys2Proof.Machine
end

section
/-! PROOF. What each command does where it completes, one lemma about `exec` per command (40_lfsr.md R63 to R67,
41_nlf.md R73, 42_combiner.md R81 to R89, 43_filtered.md R91 to R93, 70_reset_and_hazards.md R113), and the statements
read off them. -/

namespace Sys2Proof.Machine

variable {s : State}

/-! ### `NOP` (R63, R81, R91) -/

theorem exec_of_nop {i : Instr} (hi : i = .lfsrNop ∨ i = .cgNop ∨ i = .frNop) (s : State) :
    exec i s = .next s.retire := by
  rcases hi with rfl | rfl | rfl <;> rfl

theorem execAll_of_nops {is : List Instr} (his : ∀ i ∈ is, i = .lfsrNop ∨ i = .cgNop ∨ i = .frNop) (s : State) :
    ∃ u, execAll is s = .next u ∧ u.lfsr = s.lfsr ∧ u.cg = s.cg ∧ u.fr = s.fr ∧ u.results = s.results := by
  induction is generalizing s with
  | nil => exact ⟨s, rfl, rfl, rfl, rfl, rfl⟩
  | cons i is ih =>
    obtain ⟨hi, hrest⟩ := List.forall_mem_cons.mp his
    obtain ⟨u, hu, hsame⟩ := ih hrest s.retire
    exact ⟨u, (execAll_cons_next (exec_of_nop hi s)).trans hu, hsame⟩

/-- Settles O8: the word, one cycle, and any number of cycles. -/
theorem nopHoldsAllState : Obligations.NopHoldsAllState := by
  refine ⟨fun p hc => ⟨fun ht => ?_, fun ht => ?_, fun ht => ?_⟩, fun s => ⟨rfl, rfl, rfl⟩,
    fun is s his => execAll_of_nops his s⟩
  · rw [decode_of_lfsr ht]; simp only [decodeLfsr, hc]; rfl
  · rw [decode_of_cg ht]; simp only [decodeCg, hc]; rfl
  · rw [decode_of_fr ht]; simp only [decodeFr, hc]; rfl

/-! ### Loads, draws and inputs (R66, R73, R113) -/

theorem exec_lfsrLoad_of_operandVec {v : Operand} {w : BitVec s.lfsr.cfg.N} (hw : operandVec s.lfsr.cfg.N v = some w) :
    exec (.lfsrLoad v) s = .next (s.giveLfsr w).retire :=
  withOperand_some hw _

theorem exec_lfsrLoadRandom_of_operandVec {r : Operand} {w : BitVec s.lfsr.cfg.N}
    (hw : operandVec s.lfsr.cfg.N r = some w) : exec (.lfsrLoadRandom r) s = .next (s.giveLfsr w).retire :=
  withOperand_some hw _

theorem exec_lfsrLoadRandom_of_wasReset {r : Operand} {w : BitVec s.lfsr.cfg.N} (hr : s.lfsr.wasReset = true)
    (hw : operandVec s.lfsr.cfg.N r = some w) :
    exec (.lfsrLoadRandom r) s = .next (s.setLfsr (s.lfsr.loaded w)).retire := by
  rw [exec_lfsrLoadRandom_of_operandVec hw, giveLfsr_of_wasReset hr]

theorem exec_frReset_of_operandVec {op : OpCode} {r : Operand} {w : BitVec s.fr.cfg.N}
    (hw : operandVec s.fr.cfg.N r = some w) : exec (.frReset op r) s = .next (s.setFr (s.fr.loaded w)).retire :=
  withOperand_some hw _

theorem exec_nlfEval_of_operandVec {x : Operand} {w : BitVec s.nlf.cfg.N} (hw : operandVec s.nlf.cfg.N x = some w) :
    exec (.nlfEval x) s = .next (s.retireReading (nlfF s.nlf.cfg.F w)) :=
  withOperand_some hw _

/-- Settles O12: the draw is loaded once the instance was reset, and a free value before that. -/
theorem lfsrLoadRandomWritesTheDraw : Obligations.LfsrLoadRandomWritesTheDraw := by
  intro s rnd w hw
  refine ⟨fun hr => exec_lfsrLoadRandom_of_wasReset hr hw, fun hr => ?_⟩
  rw [exec_lfsrLoadRandom_of_operandVec hw, giveLfsr_of_not_wasReset hr]
  exact ⟨_, _, rfl⟩

/-- Settles O15: the input is read from its port and the function's value from `y_o`. -/
theorem nlfEvalReturnsTheFunction : Obligations.NlfEvalReturnsTheFunction :=
  fun _ _ _ => exec_nlfEval_of_operandVec

/-- Settles O31: the draw on `rnd_i` is the register's value. -/
theorem frResetTakesTheDraw : Obligations.FrResetTakesTheDraw :=
  fun _ _ _ _ => exec_frReset_of_operandVec

/-- Settles O14: the register's new value is a free one. -/
theorem lfsrResetLeavesStateUnspecified : Obligations.LfsrResetLeavesStateUnspecified :=
  fun _ _ => ⟨_, _, rfl⟩

/-- Settles O23: the three registers' new values are free ones. -/
theorem cgResetLeavesStateUnspecified : Obligations.CgResetLeavesStateUnspecified :=
  fun _ _ => ⟨_, _, _, _, rfl⟩

/-! ### `EVAL` (R67, R84, R93) -/

theorem exec_lfsrEval_of_canRead (h : s.lfsr.init = true ∨ s.view = .hardware) :
    exec .lfsrEval s = .next (s.retireWith .lfsr (nlfF s.lfsr.cfg.F s.lfsr.S)) :=
  reading_of_canRead h _ _ _

theorem exec_cgEval_of_canRead (h : s.cg.init = true ∨ s.view = .hardware) :
    exec .cgEval s = .next (s.retireWith .cg (cgBit s.cg)) :=
  reading_of_canRead h _ _ _

theorem exec_frEval_of_canRead (h : s.fr.init = true ∨ s.view = .hardware) :
    exec .frEval s = .next (s.retireWith .fr (nlfF s.fr.cfg.F s.fr.S)) :=
  reading_of_canRead h _ _ _

theorem exec_lfsrEval_of_model (hi : s.lfsr.init = false) (hv : s.view = .model) :
    exec .lfsrEval s = .fault (.uninitialized .lfsr .eval s.pc) :=
  reading_of_model hi hv _ _ _

theorem exec_cgEval_of_model (hi : s.cg.init = false) (hv : s.view = .model) :
    exec .cgEval s = .fault (.uninitialized .cg .eval s.pc) :=
  reading_of_model hi hv _ _ _

theorem exec_frEval_of_model (hi : s.fr.init = false) (hv : s.view = .model) :
    exec .frEval s = .fault (.uninitialized .fr .eval s.pc) :=
  reading_of_model hi hv _ _ _

/-- Settles O13: the read goes on, and the cycle ends with the function's bit. -/
theorem lfsrEvalReturnsTheFunction : Obligations.LfsrEvalReturnsTheFunction :=
  fun _ => exec_lfsrEval_of_canRead

/-- Settles O30: the read goes on, and the cycle ends with the filter's bit. -/
theorem frEvalReturnsTheFilter : Obligations.FrEvalReturnsTheFilter :=
  fun _ => exec_frEval_of_canRead

/-- Settles O22: `EVAL` leaves the registers, so the `STEP` after it reads the same entry. -/
theorem cgEvalForetellsStep : Obligations.CgEvalForetellsStep := by
  intro s h
  have heval := exec_cgEval_of_canRead h
  have hstep := exec_cgStep_of_canRead (s := s.retireWith .cg (cgBit s.cg)) h
  exact ⟨cgBit s.cg, heval, _, execAll_pair heval hstep, List.append_assoc _ _ _⟩

/-! ### The keystream bit of a `CG` (R85, R89) -/

/-- Settles O24: the index is three bits, and `STEP` returns the entry at it. -/
theorem cgIndexIsInRange : Obligations.CgIndexIsInRange :=
  fun s hi => ⟨cgIndex_toNat_le_seven s.cg.S0 s.cg.S1 s.cg.S2, _, exec_cgStep_of_canRead (.inl hi), rfl⟩

/-- A table that is a function of the three output bits gives that function. -/
theorem cgBit_of_table {g : Cg} {TT : BitVec 8} {f : Bool → Bool → Bool → Bool}
    (hf : ∀ a b c : Bool, TT.getLsbD (4 * a.toNat + 2 * b.toNat + c.toNat) = f a b c) (hTT : g.cfg.TT = TT) :
    cgBit g = f (outBit g.S0) (outBit g.S1) (outBit g.S2) := by
  rw [cgBit_eq_getLsbD, hTT, hf]

/-- Settles O27: each table as a function of the three output bits, checked on its eight entries. -/
theorem cgSingleInputTables : Obligations.CgSingleInputTables :=
  fun _ hi => ⟨_, _, exec_cgStep_of_canRead (.inl hi), rfl,
    cgBit_of_table (f := fun _ _ _ => false) (by decide), cgBit_of_table (f := fun _ _ _ => true) (by decide),
    cgBit_of_table (f := fun a _ _ => a) (by decide), cgBit_of_table (f := fun _ b _ => b) (by decide),
    cgBit_of_table (f := fun _ _ c => c) (by decide), cgBit_of_table (f := fun a b c => a ^^ b ^^ c) (by decide)⟩

end Sys2Proof.Machine
end

section
/-! PROOF. When a command does not complete: a read of an instance not initialized, a reserved word, an operand of
another width (60_exceptions.md R98 to R102, R105), each command brought under the shared operation that decides it.
-/

namespace Sys2Proof.Machine

variable {i : Instr} {s : State}

/-! ### The commands by the operation that decides their outcome -/

/-- Whether a command that drives the result port steps or evaluates (R25). -/
def readCommand : Instr → ReadCommand
  | .lfsrEval | .cgEval | .frEval => .eval
  | _ => .step

/-- The initialized marker of the module type's instance (R25); an `NLF` has none. -/
def State.initOf (s : State) : ModuleType → Bool
  | .lfsr => s.lfsr.init
  | .nlf => false
  | .cg => s.cg.init
  | .fr => s.fr.init

/-- Unspecified contents in the registers of the module type's instance (R56, I1); an `NLF` has none. -/
def State.lose (s : State) : ModuleType → State
  | .lfsr => s.loseLfsr
  | .nlf => s
  | .cg => s.loseCg
  | .fr => s.loseFr

/-- A command that returns a bit reads its own instance (R53, R102). -/
theorem exec_of_drivesResult (h : i.drivesResult = true) (s : State) :
    ∃ t, exec i s = reading s i.module (readCommand i) (s.initOf i.module) (.next t) := by
  cases i with
  | lfsrStep | lfsrEval | cgStep | cgEval | frStep | frEval => exact ⟨_, rfl⟩
  | _ => cases h

/-- A reserved word, with the op bits of its word (R101). -/
theorem exec_of_isIllegal (h : i.isIllegal = true) (s : State) :
    exec i s = illegal s i.module (i.word.extractLsb' 0 3) (s.lose i.module) := by
  cases i with
  | lfsrIllegal101 | lfsrIllegal110 | lfsrIllegal111 => rfl
  | cgIllegal011 | cgIllegal101 | cgIllegal110 | cgIllegal111 => rfl
  | frIllegal010 | frIllegal011 | frIllegal101 | frIllegal110 | frIllegal111 => rfl
  | _ => cases h

/-- Every other command completes where its operands are of the right width (R99). -/
theorem exec_completes (hi : i.isIllegal = false) (hd : i.drivesResult = false)
    (hw : i.wellFormed ⟨s.lfsr.cfg.N, s.nlf.cfg.N, s.cg.cfg.N, s.fr.cfg.N⟩ = true) : ∃ t, exec i s = .next t := by
  cases i with
  | lfsrNop | cgNop | frNop | lfsrReset | cgReset => exact ⟨_, rfl⟩
  | lfsrLoad v => exact (operandVec_of_fits hw).elim fun _ h => ⟨_, exec_lfsrLoad_of_operandVec h⟩
  | lfsrLoadRandom r => exact (operandVec_of_fits hw).elim fun _ h => ⟨_, exec_lfsrLoadRandom_of_operandVec h⟩
  | nlfEval x => exact (operandVec_of_fits hw).elim fun _ h => ⟨_, exec_nlfEval_of_operandVec h⟩
  | frReset op r => exact (operandVec_of_fits hw).elim fun _ h => ⟨_, exec_frReset_of_operandVec h⟩
  | cgSetState k0 k1 k2 =>
    simp only [Instr.wellFormed, Bool.and_eq_true] at hw
    obtain ⟨⟨hw0, hw1⟩, hw2⟩ := hw
    obtain ⟨w0, h0⟩ := operandVec_of_fits hw0
    obtain ⟨w1, h1⟩ := operandVec_of_fits hw1
    obtain ⟨w2, h2⟩ := operandVec_of_fits hw2
    exact ⟨_, exec_cgSetState_of_operandVec h0 h1 h2⟩
  | lfsrStep | lfsrEval | cgStep | cgEval | frStep | frEval => cases hd
  | _ => cases hi

/-- A command that faults is a reserved word or reads an instance. -/
theorem drivesResult_of_exec_fault {f : Fault} (h : exec i s = .fault f) (hi : i.isIllegal = false) :
    i.drivesResult = true := by
  cases i with
  | lfsrStep | lfsrEval | cgStep | cgEval | frStep | frEval => rfl
  | lfsrNop | cgNop | frNop | lfsrReset | cgReset => cases h
  | lfsrLoad | lfsrLoadRandom | nlfEval | frReset => obtain ⟨w, -, h⟩ := withOperand_fault h; cases h
  | cgSetState k0 k1 k2 =>
    obtain ⟨w0, -, h⟩ := withOperand_fault h
    obtain ⟨w1, -, h⟩ := withOperand_fault h
    obtain ⟨w2, -, h⟩ := withOperand_fault h
    cases h
  | _ => cases hi

theorem exec_illegal_of_model (hi : i.isIllegal = true) (hv : s.view = .model) :
    exec i s = .fault (.illegalCommand i.module (i.word.extractLsb' 0 3) s.pc) := by
  rw [exec_of_isIllegal hi, illegal_model hv]

theorem exec_illegal_of_hardware (hi : i.isIllegal = true) (hv : s.view = .hardware) :
    exec i s = .next (s.lose i.module).retire := by
  rw [exec_of_isIllegal hi, illegal_hardware hv]

/-! ### The statements -/

/-- Settles O39: each of the twelve reserved words, with the op bits of its word. -/
theorem reservedOpsFaultInTheModel : Obligations.ReservedOpsFaultInTheModel := by
  intro s hv
  refine ⟨⟨?_, ?_, ?_⟩, ⟨?_, ?_, ?_, ?_⟩, ⟨?_, ?_, ?_, ?_, ?_⟩⟩
  all_goals exact exec_illegal_of_model rfl hv

/-- Settles O40: the open registers are those of the word's own module type. -/
theorem reservedOpsCompleteInHardware : Obligations.ReservedOpsCompleteInHardware := by
  refine fun s hv => ⟨fun i hi => ?lfsr, fun i hi => ?cg, fun i hi => ?fr⟩
  case lfsr => rcases hi with rfl | rfl | rfl <;> exact ⟨_, _, exec_illegal_of_hardware rfl hv⟩
  case cg => rcases hi with rfl | rfl | rfl | rfl <;> exact ⟨_, _, _, _, exec_illegal_of_hardware rfl hv⟩
  case fr => rcases hi with rfl | rfl | rfl | rfl | rfl <;> exact ⟨_, _, exec_illegal_of_hardware rfl hv⟩

/-- Settles O38: the check of `init` by view, and in the hardware's view each command as where the instance is
initialized. -/
theorem uninitializedReadsByView : Obligations.UninitializedReadsByView := by
  refine ⟨fun s hv => ⟨fun hi => ⟨exec_lfsrStep_of_model hi hv, exec_lfsrEval_of_model hi hv⟩,
    fun hi => ⟨exec_cgStep_of_model hi hv, exec_cgEval_of_model hi hv⟩,
    fun hi => ⟨exec_frStep_of_model hi hv, exec_frEval_of_model hi hv⟩⟩, fun s hv => ?_⟩
  have hcgStep := exec_cgStep_of_canRead (s := s) (.inr hv)
  have hcgEval := exec_cgEval_of_canRead (s := s) (.inr hv)
  rw [cgBit_eq_getLsbD] at hcgStep hcgEval
  exact ⟨exec_lfsrStep_of_canRead (.inr hv), exec_lfsrEval_of_canRead (.inr hv), hcgStep, hcgEval,
    exec_frStep_of_canRead (.inr hv), exec_frEval_of_canRead (.inr hv)⟩

/-- Settles O41: each operand is read from its port, and the first that denotes nothing is named. -/
theorem operandsOfAnotherWidthAreRefused : Obligations.OperandsOfAnotherWidthAreRefused :=
  ⟨fun _ _ hv => ⟨exec_lfsrLoad_of_not_fits hv, withOperand_none (operandVec_of_not_fits hv) _⟩,
    fun _ _ _ _ => ⟨exec_cgSetState_of_not_fits_k0, exec_cgSetState_of_not_fits_k1, exec_cgSetState_of_not_fits_k2⟩,
    fun _ _ _ hv => withOperand_none (operandVec_of_not_fits hv) _,
    fun _ _ hx => withOperand_none (operandVec_of_not_fits hx) _⟩

/-- Settles O43: a reserved word and a read have two outcomes each, and every other command completes. -/
theorem wellFormedCommandsStopOnlyByTheirRule : Obligations.WellFormedCommandsStopOnlyByTheirRule := by
  intro s i hw
  cases hi : i.isIllegal with
  | true =>
    rw [exec_of_isIllegal hi]
    rcases illegal_cases s i.module (i.word.extractLsb' 0 3) (s.lose i.module) with hnext | ⟨hv, hfault⟩
    · exact .inl ⟨_, hnext⟩
    · exact .inr ⟨hv, .inl ⟨rfl, _, hfault⟩⟩
  | false =>
    cases hd : i.drivesResult with
    | false => exact .inl (exec_completes hi hd hw)
    | true =>
      obtain ⟨t, ht⟩ := exec_of_drivesResult hd s
      rw [ht]
      rcases reading_cases s i.module (readCommand i) (s.initOf i.module) (.next t) with hnext | ⟨hv, hfault⟩
      · exact .inl ⟨t, hnext⟩
      · exact .inr ⟨hv, .inr ⟨rfl, _, hfault⟩⟩

/-- Settles O42: a fault is that of a reserved word or of a read, and a step that faults is the command at the index. -/
theorem faultsRecordTheirCause : Obligations.FaultsRecordTheirCause := by
  refine ⟨fun i s f => ⟨fun h => ?cause, fun h => ?raised⟩, fun s f h => ?step⟩
  case cause =>
    cases hi : i.isIllegal with
    | true =>
      rw [exec_of_isIllegal hi] at h
      obtain ⟨hv, rfl⟩ := illegal_fault h
      exact ⟨hv, .inl ⟨rfl, rfl⟩⟩
    | false =>
      have hd := drivesResult_of_exec_fault h hi
      obtain ⟨t, ht⟩ := exec_of_drivesResult hd s
      obtain ⟨hv, hinit, rfl⟩ := reading_fault (ht.symm.trans h)
      cases i with
      | lfsrStep | lfsrEval | cgStep | cgEval | frStep | frEval =>
        simpa [Instr.module, readCommand, State.initOf, hv] using hinit
      | _ => cases hd
  case raised =>
    obtain ⟨hv, ⟨hi, rfl⟩ | hread⟩ := h
    · exact exec_illegal_of_model hi hv
    · rcases hread with ⟨rfl, hinit, rfl⟩ | ⟨rfl, hinit, rfl⟩ | ⟨rfl, hinit, rfl⟩ | ⟨rfl, hinit, rfl⟩ |
        ⟨rfl, hinit, rfl⟩ | ⟨rfl, hinit, rfl⟩
      all_goals exact reading_of_model hinit hv _ _ _
  case step =>
    rcases step_cases s with ⟨p, hp, hstep⟩ | hidle
    · exact ⟨p, hp, hstep.symm.trans h⟩
    · cases hidle.symm.trans h

end Sys2Proof.Machine
end

section
/-! PROOF. The output ports against the state held (10_state.md R24, R25, R28 to R31, 70_reset_and_hazards.md R120),
and the expansion of pseudo-commands (30_encoding.md R60). -/

namespace Sys2Proof.Machine

variable {s t : State}

/-- In the model's view nothing of an instance not initialized is observable (R25). -/
theorem observable_of_model {α : Type} {init : Bool} (hi : init = false) (hv : s.view = .model) (v : α) :
    observable s init v = none := by
  simp [observable, State.canRead, hi, hv]

/-- The index's bits are the three output bits, register 0 most significant (R83). -/
theorem cgIndex_getLsbD {n : Nat} (a b c : BitVec n) :
    (cgIndex a b c).getLsbD 2 = outBit a ∧ (cgIndex a b c).getLsbD 1 = outBit b ∧
      (cgIndex a b c).getLsbD 0 = outBit c := by
  unfold cgIndex
  cases outBit a <;> cases outBit b <;> cases outBit c <;> exact ⟨rfl, rfl, rfl⟩

/-! ### Ports by view (R28, R30, R31) -/

theorem lfsr_ports_of_canRead (h : s.lfsr.init = true ∨ s.view = .hardware) :
    lfsrStateO s = some s.lfsr.S ∧ lfsrOutO s = some (outBit s.lfsr.S) ∧
      lfsrFO s = some (nlfF s.lfsr.cfg.F s.lfsr.S) :=
  ⟨observable_of_canRead h _, observable_of_canRead h _, observable_of_canRead h _⟩

theorem lfsr_ports_of_model (hi : s.lfsr.init = false) (hv : s.view = .model) :
    lfsrStateO s = none ∧ lfsrOutO s = none ∧ lfsrFO s = none :=
  ⟨observable_of_model hi hv _, observable_of_model hi hv _, observable_of_model hi hv _⟩

theorem cg_state_ports_of_canRead (h : s.cg.init = true ∨ s.view = .hardware) :
    cgState0O s = some s.cg.S0 ∧ cgState1O s = some s.cg.S1 ∧ cgState2O s = some s.cg.S2 :=
  ⟨observable_of_canRead h _, observable_of_canRead h _, observable_of_canRead h _⟩

theorem cg_ports_of_model (hi : s.cg.init = false) (hv : s.view = .model) :
    cgState0O s = none ∧ cgState1O s = none ∧ cgState2O s = none ∧ cgIdxO s = none ∧ cgKsO s = none :=
  ⟨observable_of_model hi hv _, observable_of_model hi hv _, observable_of_model hi hv _, observable_of_model hi hv _,
    observable_of_model hi hv _⟩

theorem fr_ports_of_canRead (h : s.fr.init = true ∨ s.view = .hardware) :
    frStateO s = some s.fr.S ∧ frYO s = some (nlfF s.fr.cfg.F s.fr.S) :=
  ⟨observable_of_canRead h _, observable_of_canRead h _⟩

theorem fr_ports_of_model (hi : s.fr.init = false) (hv : s.view = .model) : frStateO s = none ∧ frYO s = none :=
  ⟨observable_of_model hi hv _, observable_of_model hi hv _⟩

/-! ### `EVAL` against its port (R67, R84, R93) -/

theorem exec_lfsrEval_returns_lfsrFO (h : exec .lfsrEval s = .next t) : lfsrFO s = some t.res.bit := by
  obtain ⟨hr, h⟩ := reading_next h
  obtain rfl := Host.Outcome.next.inj h
  exact observable_of_canRead hr _

theorem exec_cgEval_returns_cgKsO (h : exec .cgEval s = .next t) : cgKsO s = some t.res.bit := by
  obtain ⟨hr, h⟩ := reading_next h
  obtain rfl := Host.Outcome.next.inj h
  exact observable_of_canRead hr _

theorem exec_frEval_returns_frYO (h : exec .frEval s = .next t) : frYO s = some t.res.bit := by
  obtain ⟨hr, h⟩ := reading_next h
  obtain rfl := Host.Outcome.next.inj h
  exact observable_of_canRead hr _

/-! ### What a load, a seed or a draw writes is on the ports of the next state (R120) -/

theorem lfsrStateO_of_load {v : Operand} {w : BitVec s.lfsr.cfg.N} (hr : s.lfsr.wasReset = true)
    (hw : operandVec s.lfsr.cfg.N v = some w)
    (h : exec (.lfsrLoad v) s = .next t ∨ exec (.lfsrLoadRandom v) s = .next t) :
    (lfsrStateO t).map BitVec.toNat = some w.toNat := by
  rw [exec_lfsrLoad_of_wasReset hr hw, exec_lfsrLoadRandom_of_wasReset hr hw, or_self] at h
  obtain rfl := Host.Outcome.next.inj h
  rw [lfsrStateO_of_init rfl]
  rfl

theorem cg_state_ports_of_setState {k0 k1 k2 : Operand} {w0 w1 w2 : BitVec s.cg.cfg.N} (hr : s.cg.wasReset = true)
    (h0 : operandVec s.cg.cfg.N k0 = some w0) (h1 : operandVec s.cg.cfg.N k1 = some w1)
    (h2 : operandVec s.cg.cfg.N k2 = some w2) (h : exec (.cgSetState k0 k1 k2) s = .next t) :
    (cgState0O t).map BitVec.toNat = some w0.toNat ∧ (cgState1O t).map BitVec.toNat = some w1.toNat ∧
      (cgState2O t).map BitVec.toNat = some w2.toNat := by
  obtain rfl := Host.Outcome.next.inj ((exec_cgSetState_of_wasReset hr h0 h1 h2).symm.trans h)
  obtain ⟨hS0, hS1, hS2⟩ := cg_state_ports_of_canRead (s := (s.setCg (s.cg.loaded w0 w1 w2)).retire) (.inl rfl)
  rw [hS0, hS1, hS2]
  exact ⟨rfl, rfl, rfl⟩

theorem frStateO_of_reset {op : OpCode} {v : Operand} {w : BitVec s.fr.cfg.N} (hw : operandVec s.fr.cfg.N v = some w)
    (h : exec (.frReset op v) s = .next t) : (frStateO t).map BitVec.toNat = some w.toNat := by
  obtain rfl := Host.Outcome.next.inj ((exec_frReset_of_operandVec hw).symm.trans h)
  obtain ⟨hS, -⟩ := fr_ports_of_canRead (s := (s.setFr (s.fr.loaded w)).retire) (.inl rfl)
  rw [hS]
  rfl

/-- Settles O60: the ports by view, `EVAL` against its port, the state a reset leaves not initialized, and the states
that loads, seeds and draws leave. -/
theorem outputPortsShowTheStateHeld : Obligations.OutputPortsShowTheStateHeld := by
  refine ⟨fun s => ⟨lfsr_ports_of_canRead, lfsr_ports_of_model, fun h => ?cg, cg_ports_of_model, fr_ports_of_canRead,
    fr_ports_of_model, fun _ => rfl⟩,
    fun s t => ⟨exec_lfsrEval_returns_lfsrFO, exec_cgEval_returns_cgKsO, exec_frEval_returns_frYO⟩,
    fun s t op hv => ⟨fun h => ?lfsrReset, fun h => ?cgReset⟩, fun s t v w => lfsrStateO_of_load,
    fun s t k0 k1 k2 w0 w1 w2 => cg_state_ports_of_setState, fun s t op v w => frStateO_of_reset⟩
  case cg =>
    obtain ⟨hS0, hS1, hS2⟩ := cg_state_ports_of_canRead h
    obtain ⟨h2, h1, h0⟩ := cgIndex_getLsbD s.cg.S0 s.cg.S1 s.cg.S2
    exact ⟨hS0, hS1, hS2, _, observable_of_canRead h _, h2, h1, h0, observable_of_canRead h _⟩
  case lfsrReset =>
    obtain rfl := Host.Outcome.next.inj h
    exact lfsr_ports_of_model rfl hv
  case cgReset =>
    obtain rfl := Host.Outcome.next.inj h
    exact cg_ports_of_model rfl hv

/-- Settles O59: each expansion is the list of R60. -/
theorem pseudoCommandsExpand : Obligations.PseudoCommandsExpand :=
  fun _ _ _ => ⟨rfl, rfl, rfl, rfl, rfl, rfl, rfl, rfl, rfl, rfl, rfl, rfl, rfl, rfl⟩

end Sys2Proof.Machine
end

section
/-! PROOF. Runs of one command, or of one block of commands, many times over: what a block does to its instance once
gives what `n` of them do. The keystreams and output sequences of 40_lfsr.md R68, R70, 42_combiner.md R86 to R90,
43_filtered.md R95, R96 and 70_reset_and_hazards.md R114 are such runs. -/

namespace Sys2Proof.Machine

/-! ### Blocks of commands -/

section
variable {α : Type} {is : List Instr} {π : State → α} {P : α → Prop} {f : α → α}

/-- Wherever the part `π` of the state meets `P`, the commands complete, move that part by `f` within `P`, and add to
the results what `out` gives for it. -/
def Advances (is : List Instr) (π : State → α) (P : α → Prop) (f : α → α) (out : α → List (ModuleType × Bool)) : Prop :=
  ∀ s : State, P (π s) → P (f (π s)) ∧
    ∃ t, execAll is s = .next t ∧ π t = f (π s) ∧ t.results = s.results ++ out (π s)

theorem Advances.iterate {out : α → List (ModuleType × Bool)} (h : Advances is π P f out) (n : Nat) {s : State}
    (hs : P (π s)) : ∃ u, execAll (List.replicate n is).flatten s = .next u ∧ π u = f^[n] (π s) ∧
      u.results = s.results ++ (List.range n).flatMap fun t => out (f^[t] (π s)) := by
  induction n generalizing s with
  | zero => exact ⟨s, rfl, rfl, by simp⟩
  | succ n ih =>
    obtain ⟨hP, t, ht, hπ, hresults⟩ := h s hs
    obtain ⟨u, hu, hπu, hresultsu⟩ := ih (s := t) (hπ ▸ hP)
    refine ⟨u, ?_, ?_, ?_⟩
    · rw [List.replicate_succ, List.flatten_cons, execAll_append ht, hu]
    · rw [hπu, hπ, Function.iterate_succ_apply]
    · rw [hresultsu, hresults, hπ, List.range_succ_eq_map, List.flatMap_cons, List.flatMap_map, List.append_assoc]
      rfl

/-- The same for a block of one command that adds one result. -/
theorem Advances.replicate {i : Instr} {out : α → ModuleType × Bool} (h : Advances [i] π P f fun a => [out a]) (n : Nat)
    {s : State} (hs : P (π s)) : ∃ u, execAll (List.replicate n i) s = .next u ∧ π u = f^[n] (π s) ∧
      u.results = s.results ++ (List.range n).map fun t => out (f^[t] (π s)) := by
  obtain ⟨u, hu, hπ, hresults⟩ := h.iterate n hs
  rw [List.flatten_replicate_singleton] at hu
  rw [← List.map_eq_flatMap] at hresults
  exact ⟨u, hu, hπ, hresults⟩

end

/-! ### The `STEP` of each module type, and `EVAL` with `STEP` of an `LFSR` -/

theorem lfsrStep_advances : Advances [.lfsrStep] State.lfsr (fun l => l.init = true) Lfsr.stepped
    fun l => [(.lfsr, outBit l.S)] :=
  fun _ h => ⟨h, _, execAll_cons_next (exec_lfsrStep_of_canRead (.inl h)), rfl, rfl⟩

theorem cgStep_advances : Advances [.cgStep] State.cg (fun g => g.init = true) Cg.stepped fun g => [(.cg, cgBit g)] :=
  fun _ h => ⟨h, _, execAll_cons_next (exec_cgStep_of_canRead (.inl h)), rfl, rfl⟩

theorem frStep_advances : Advances [.frStep] State.fr (fun r => r.init = true) Fr.stepped
    fun r => [(.fr, nlfF r.cfg.F r.S)] :=
  fun _ h => ⟨h, _, execAll_cons_next (exec_frStep_of_canRead (.inl h)), rfl, rfl⟩

theorem lfsrEval_lfsrStep_advances : Advances [.lfsrEval, .lfsrStep] State.lfsr (fun l => l.init = true) Lfsr.stepped
    fun l => [(.lfsr, nlfF l.cfg.F l.S), (.lfsr, outBit l.S)] := fun s h =>
  ⟨h, _, execAll_pair (exec_lfsrEval_of_canRead (.inl h)) (exec_lfsrStep_of_canRead (s := s.retireWith _ _) (.inl h)),
    rfl, List.append_assoc _ _ _⟩

/-! ### Iterated steps of an instance are iterated steps of its registers -/

theorem Lfsr.stepped_iterate (l : Lfsr) (n : Nat) : Lfsr.stepped^[n] l = { l with S := (stepR l.cfg.T)^[n] l.S } := by
  induction n with
  | zero => rfl
  | succ n ih => rw [Function.iterate_succ_apply', ih, Function.iterate_succ_apply']; rfl

theorem Lfsr.outBit_stepped_iterate (l : Lfsr) (n : Nat) :
    outBit (Lfsr.stepped^[n] l).S = outBit ((stepR l.cfg.T)^[n] l.S) := by
  rw [Lfsr.stepped_iterate]

theorem Lfsr.nlfF_stepped_iterate (l : Lfsr) (n : Nat) :
    nlfF (Lfsr.stepped^[n] l).cfg.F (Lfsr.stepped^[n] l).S = nlfF l.cfg.F ((stepR l.cfg.T)^[n] l.S) := by
  rw [Lfsr.stepped_iterate]

theorem Cg.stepped_iterate (g : Cg) (n : Nat) : Cg.stepped^[n] g = { g with
    S0 := (stepR g.cfg.T0)^[n] g.S0, S1 := (stepR g.cfg.T1)^[n] g.S1, S2 := (stepR g.cfg.T2)^[n] g.S2 } := by
  induction n with
  | zero => rfl
  | succ n ih => simp only [Function.iterate_succ_apply', ih]; rfl

theorem Fr.stepped_iterate (r : Fr) (n : Nat) : Fr.stepped^[n] r = { r with S := (stepR r.cfg.T)^[n] r.S } := by
  induction n with
  | zero => rfl
  | succ n ih => rw [Function.iterate_succ_apply', ih, Function.iterate_succ_apply']; rfl

theorem Fr.nlfF_stepped_iterate (r : Fr) (n : Nat) :
    nlfF (Fr.stepped^[n] r).cfg.F (Fr.stepped^[n] r).S = nlfF r.cfg.F ((stepR r.cfg.T)^[n] r.S) := by
  rw [Fr.stepped_iterate]

end Sys2Proof.Machine
end

section
/-! PROOF. Output sequences of an `LFSR` after a load: the lock-up state (40_lfsr.md R68) and the recurrence (R70). -/

namespace Sys2Proof.Machine

variable {s : State}

/-- After either load and `n` steps the register is the `n`-fold step of the operand, and each step returned the output
bit of the state before it. -/
theorem execAll_load_lfsrSteps {v : Operand} {w : BitVec s.lfsr.cfg.N} {i : Instr} (hr : s.lfsr.wasReset = true)
    (hw : operandVec s.lfsr.cfg.N v = some w) (hi : i = .lfsrLoad v ∨ i = .lfsrLoadRandom v) (n : Nat) :
    ∃ u, execAll (i :: List.replicate n .lfsrStep) s = .next u ∧
      u.lfsr = { s.lfsr with S := (stepR s.lfsr.cfg.T)^[n] w, init := true } ∧
      u.results = s.results ++ (List.range n).map fun t => (.lfsr, outBit ((stepR s.lfsr.cfg.T)^[t] w)) := by
  have hload : exec i s = .next (s.setLfsr (s.lfsr.loaded w)).retire := by
    rcases hi with rfl | rfl
    · exact exec_lfsrLoad_of_wasReset hr hw
    · exact exec_lfsrLoadRandom_of_wasReset hr hw
  obtain ⟨u, hu, hlfsr, hresults⟩ :=
    lfsrStep_advances.replicate n (s := (s.setLfsr (s.lfsr.loaded w)).retire) rfl
  simp only [Lfsr.outBit_stepped_iterate] at hresults
  rw [Lfsr.stepped_iterate] at hlfsr
  exact ⟨u, (execAll_cons_next hload).trans hu, hlfsr, hresults⟩

/-- Settles O35: the zero state is a fixed point with output 0, so a run from it stays there. -/
theorem zeroStateLocksUp : Obligations.ZeroStateLocksUp := by
  refine ⟨fun n T => ⟨stepR_zero T, outBit_zero⟩, fun s k v i hr hv hi => ?_⟩
  obtain ⟨u, hu, hlfsr, hresults⟩ := execAll_load_lfsrSteps hr hv hi k
  refine ⟨u, hu, ?_, ?_⟩
  · rw [hlfsr]
    exact stepR_iterate_zero _ k
  · rw [hresults]
    simp only [BitVec.ofNat_eq_ofNat, stepR_iterate_zero, outBit_zero, List.map_const', List.length_range]

/-- Settles O37: the sequence is that of the output bits of the iterated steps. -/
theorem outputsFollowTheRecurrence : Obligations.OutputsFollowTheRecurrence := by
  intro s v w hN hr hw
  refine ⟨fun k => outBit ((stepR s.lfsr.cfg.T)^[k] w), fun i hi => ?first, outBit_iterate_recurrence _ w hN,
    fun t => ?run⟩
  case first => simpa using (stepR_iterate_getLsbD s.lfsr.cfg.T w 0 hi).symm
  case run =>
    obtain ⟨u, hu, hlfsr, hresults⟩ := execAll_load_lfsrSteps hr hw (.inl rfl) t
    refine ⟨u, hu, hresults, fun i hi => ?_⟩
    rw [hlfsr]
    exact stepR_iterate_getLsbD s.lfsr.cfg.T w t hi

end Sys2Proof.Machine
end

section
/-! PROOF. The keystream of a `CG` after `SET_STATE` (42_combiner.md R86, R88, R90). -/

namespace Sys2Proof.Machine

variable {s : State} {k0 k1 k2 : Operand}

/-- The run is that of the seeded `CG` alone: nothing else of the state it starts from is read. -/
theorem execAll_cgSetState_cgSteps {c : CgConfig} {w0 w1 w2 : BitVec c.N} (hc : s.cg.cfg = c)
    (hr : s.cg.wasReset = true) (h0 : operandVec c.N k0 = some w0) (h1 : operandVec c.N k1 = some w1)
    (h2 : operandVec c.N k2 = some w2) (n : Nat) :
    ∃ u, execAll (.cgSetState k0 k1 k2 :: List.replicate n .cgStep) s = .next u ∧
      u.cg = Cg.stepped^[n] ⟨c, w0, w1, w2, true, true⟩ ∧
      u.results =
        s.results ++ (List.range n).map fun t => (.cg, cgBit (Cg.stepped^[t] ⟨c, w0, w1, w2, true, true⟩)) := by
  subst hc
  have hseeded : s.cg.loaded w0 w1 w2 = ⟨s.cg.cfg, w0, w1, w2, true, true⟩ :=
    congrArg (Cg.mk s.cg.cfg w0 w1 w2 true) hr
  obtain ⟨u, hu, hcg, hresults⟩ := cgStep_advances.replicate n (s := (s.setCg (s.cg.loaded w0 w1 w2)).retire) rfl
  simp only [State.retire_cg, State.setCg_cg, hseeded] at hcg hresults
  exact ⟨u, (execAll_cons_next (exec_cgSetState_of_wasReset hr h0 h1 h2)).trans hu, hcg, hresults⟩

/-- The keystream bits in numbers, each register stepped on its own. -/
theorem cgBit_stepped_iterate (g : Cg) (t : Nat) :
    cgBit (Cg.stepped^[t] g) = g.cfg.TT.getLsbD (4 * (outBit ((stepR g.cfg.T0)^[t] g.S0)).toNat +
      2 * (outBit ((stepR g.cfg.T1)^[t] g.S1)).toNat + (outBit ((stepR g.cfg.T2)^[t] g.S2)).toNat) := by
  rw [cgBit_eq_getLsbD, Cg.stepped_iterate]

/-- Settles O28: the run of the seeded `CG`, register by register. -/
theorem cgRegistersAreIndependent : Obligations.CgRegistersAreIndependent := by
  intro s k0 k1 k2 w0 w1 w2 n hr h0 h1 h2
  obtain ⟨u, hu, hcg, hresults⟩ := execAll_cgSetState_cgSteps rfl hr h0 h1 h2 n
  simp only [cgBit_stepped_iterate] at hresults
  refine ⟨u, hu, ?_, hresults⟩
  rw [hcg, Cg.stepped_iterate]
  exact congrArg (Cg.mk _ _ _ _ true) hr.symm

/-- With registers 0 and 2 in the lock-up state register 1 chooses between two entries of the table. -/
theorem cgBit_iterate_zero_seeds (c : CgConfig) (w1 : BitVec c.N) (t : Nat) :
    cgBit (Cg.stepped^[t] ⟨c, 0#c.N, w1, 0#c.N, true, true⟩) =
      c.TT.getLsbD (if outBit ((stepR c.T1)^[t] w1) then 2 else 0) := by
  rw [cgBit_stepped_iterate, stepR_iterate_zero, stepR_iterate_zero, outBit_zero]
  cases outBit ((stepR c.T1)^[t] w1) <;> rfl

/-- Settles O26: the two entries, both 1 in the table 0xC5. -/
theorem cgZeroSeeds : Obligations.CgZeroSeeds := by
  intro s k1 w1 n hr h1
  obtain ⟨u, hu, -, hresults⟩ := execAll_cgSetState_cgSteps rfl hr (operandVec_zero _) h1 (operandVec_zero _) n
  simp only [cgBit_iterate_zero_seeds] at hresults
  refine ⟨u, hu, hresults, fun hTT => ?_⟩
  have hones : ∀ b : Bool, s.cg.cfg.TT.getLsbD (if b then 2 else 0) = true := by rw [hTT]; decide
  rw [hresults]
  simp only [hones, List.map_const', List.length_range]

/-- Settles O25: the run of the seeded `CG` is the same from both states; and a common multiple of the registers'
periods is a period of the `CG`. -/
theorem cgKeystreamRestartsAndRepeats : Obligations.CgKeystreamRestartsAndRepeats := by
  refine ⟨fun s s' k0 k1 k2 n hcfg hr hr' hk0 hk1 hk2 => ?restart, fun s p0 p1 p2 hi h0 h1 h2 => ?period⟩
  case restart =>
    obtain ⟨w0, h0⟩ := operandVec_of_fits hk0
    obtain ⟨w1, h1⟩ := operandVec_of_fits hk1
    obtain ⟨w2, h2⟩ := operandVec_of_fits hk2
    obtain ⟨u, hu, hcg, hresults⟩ := execAll_cgSetState_cgSteps rfl hr h0 h1 h2 n
    obtain ⟨u', hu', hcg', hresults'⟩ := execAll_cgSetState_cgSteps hcfg.symm hr' h0 h1 h2 n
    exact ⟨u, u', _, by simp, hu, hu', hresults, hresults', hcg.trans hcg'.symm⟩
  case period =>
    have hper : ∀ {T S : BitVec s.cg.cfg.N} {p : Nat}, (stepR T)^[p] S = S → p ∣ Nat.lcm p0 (Nat.lcm p1 p2) →
        (stepR T)^[Nat.lcm p0 (Nat.lcm p1 p2)] S = S := fun hp hdvd => Function.IsPeriodicPt.trans_dvd hp hdvd
    have hlcm : Nat.lcm p1 p2 ∣ Nat.lcm p0 (Nat.lcm p1 p2) := Nat.dvd_lcm_right _ _
    obtain ⟨u, hu, hcg, -⟩ := cgStep_advances.replicate (Nat.lcm p0 (Nat.lcm p1 p2)) hi
    refine ⟨u, hu, ?_⟩
    rw [hcg, Cg.stepped_iterate, hper h0 (Nat.dvd_lcm_left _ _), hper h1 ((Nat.dvd_lcm_left _ _).trans hlcm),
      hper h2 ((Nat.dvd_lcm_right _ _).trans hlcm)]

end Sys2Proof.Machine
end

section
/-! PROOF. Runs of an `FR`: several reset cycles (70_reset_and_hazards.md R114), the keystream against an `LFSR`
(43_filtered.md R95) and its periods (R96). -/

namespace Sys2Proof.Machine

variable {s : State}

/-- Settles O32: by induction on the earlier resets, each of which completes. -/
theorem lastResetDrawStays : Obligations.LastResetDrawStays := by
  intro s earlier op rnd w hfits hw
  induction earlier generalizing s with
  | nil => exact ⟨_, execAll_cons_next (exec_frReset_of_operandVec hw), rfl⟩
  | cons r rest ih =>
    obtain ⟨hr, hrest⟩ := List.forall_mem_cons.mp hfits
    obtain ⟨v, hv⟩ := operandVec_of_fits hr
    obtain ⟨u, hu, hfr⟩ := ih (s.setFr (s.fr.loaded v)).retire w hrest hw
    exact ⟨u, (execAll_cons_next (exec_frReset_of_operandVec hv)).trans hu, hfr⟩

theorem execAll_frSteps (hi : s.fr.init = true) (n : Nat) :
    ∃ u, execAll (List.replicate n .frStep) s = .next u ∧ u.fr = { s.fr with S := (stepR s.fr.cfg.T)^[n] s.fr.S } ∧
      u.results = s.results ++ (List.range n).map fun t => (.fr, nlfF s.fr.cfg.F ((stepR s.fr.cfg.T)^[t] s.fr.S)) := by
  simpa only [Fr.nlfF_stepped_iterate, Fr.stepped_iterate] using frStep_advances.replicate n hi

theorem execAll_lfsrEvals_lfsrSteps (hi : s.lfsr.init = true) (n : Nat) :
    ∃ u, execAll (List.replicate n [Instr.lfsrEval, Instr.lfsrStep]).flatten s = .next u ∧
      u.lfsr = { s.lfsr with S := (stepR s.lfsr.cfg.T)^[n] s.lfsr.S } ∧
      u.results = s.results ++ (List.range n).flatMap fun t =>
        [(.lfsr, nlfF s.lfsr.cfg.F ((stepR s.lfsr.cfg.T)^[t] s.lfsr.S)),
          (.lfsr, outBit ((stepR s.lfsr.cfg.T)^[t] s.lfsr.S))] := by
  simpa only [Lfsr.outBit_stepped_iterate, Lfsr.nlfF_stepped_iterate, Lfsr.stepped_iterate] using
    lfsrEval_lfsrStep_advances.iterate n hi

/-- Settles O33: both runs iterate the same step from the same state. -/
theorem frFollowsLfsr : Obligations.FrFollowsLfsr := by
  intro s N T S F r n hl hf
  obtain ⟨u, hu, hfr, hbits⟩ := execAll_frSteps (s := s) (by rw [hf]) n
  obtain ⟨v, hv, hlfsr, hbitsv⟩ := execAll_lfsrEvals_lfsrSteps (s := s) (by rw [hl]) n
  rw [hf] at hfr hbits
  rw [hl] at hlfsr hbitsv
  exact ⟨u, v, hu, hv, hfr, hlfsr, hbits, hbitsv⟩

/-- Settles O34: a legal register comes back, and each way back is a period of the keystream. -/
theorem frKeystreamIsPurelyPeriodic : Obligations.FrKeystreamIsPurelyPeriodic := by
  intro s hlegal hi
  refine ⟨stepR_exists_period hlegal.2 s.fr.S, fun p hp => ?_⟩
  obtain ⟨u, hu, hfr, -⟩ := execAll_frSteps hi p
  exact ⟨u, hu, by rw [hfr, hp], fun k => by rw [stepR_iterate_add_period hp]⟩

end Sys2Proof.Machine
end

section
/-! PROOF. Elaboration: what each check accepts and what it gives (60_exceptions.md R99, R100, R103, R104; 10_state.md
R16 to R19), and the checks in their order (R106). -/

namespace Sys2Proof.Machine

/-! ### Positions in range -/

theorem inRange_iff {N : Nat} {p : Int} : inRange N p = true ↔ 0 ≤ p ∧ p < N := by
  rw [inRange, Bool.and_eq_true, decide_eq_true_eq, decide_eq_true_eq]

/-- Of positions in range the mask has exactly those listed. -/
theorem maskOf_getLsbD_of_inRange {N : Nat} {l : List Int} (hl : ∀ p ∈ l, 0 ≤ p ∧ p < N) {i : Nat} (hi : i < N) :
    (maskOf N l).getLsbD i = true ↔ (i : Int) ∈ l := by
  rw [maskOf_getLsbD]
  constructor
  · rintro ⟨-, p, hp, rfl⟩
    rwa [Int.toNat_of_nonneg (hl p hp).1]
  · exact fun h => ⟨hi, i, h, Int.toNat_natCast i⟩

/-! ### Tap sets (R17, R103) -/

theorem legalTapSpec_positions_iff {N : Nat} {l : List Int} :
    legalTapSpec N (.positions l) = true ↔ (∀ p ∈ l, 0 ≤ p ∧ p < N) ∧ (0 : Int) ∈ l ∧ l.Nodup := by
  simp only [legalTapSpec, Bool.and_eq_true, List.all_eq_true, inRange_iff, List.contains_iff_mem, decide_eq_true_eq,
    and_assoc]

theorem legalTapSpec_mask_iff {N m : Nat} : legalTapSpec N (.mask m) = true ↔ m < 2 ^ N ∧ m.testBit 0 = true := by
  rw [legalTapSpec, Bool.and_eq_true, decide_eq_true_eq]

theorem elabTaps_of_legal {N : Nat} {t : TapSpec} (h : legalTapSpec N t = true) (j : Nat) :
    elabTaps N j t = .ok (tapMask N t) := by
  rw [elabTaps, if_pos h]

theorem elabTaps_of_not_legal {N : Nat} {t : TapSpec} (h : legalTapSpec N t = false) (j : Nat) :
    elabTaps N j t = .error (.invalidTapSet j t) := by
  rw [elabTaps, h, if_neg Bool.false_ne_true]

theorem legalTapSpec_of_elabTaps {N j : Nat} {t : TapSpec} {T : BitVec N} (h : elabTaps N j t = .ok T) :
    legalTapSpec N t = true ∧ T = tapMask N t := by
  cases hl : legalTapSpec N t with
  | true =>
    rw [elabTaps_of_legal hl] at h
    exact ⟨rfl, (Except.ok.inj h).symm⟩
  | false =>
    rw [elabTaps_of_not_legal hl] at h
    cases h

/-- An accepted tap set has tap 0 (R17). -/
theorem legalTaps_of_legalTapSpec {N : Nat} {t : TapSpec} (hN : 1 ≤ N) (h : legalTapSpec N t = true) :
    LegalTaps (tapMask N t) := by
  cases t with
  | mask m =>
    obtain ⟨-, h0⟩ := legalTapSpec_mask_iff.mp h
    rw [LegalTaps, tapMask, BitVec.getLsbD_ofNat, h0, Bool.and_true, decide_eq_true_eq]
    exact hN
  | positions l =>
    obtain ⟨hrange, h0, -⟩ := legalTapSpec_positions_iff.mp h
    exact (maskOf_getLsbD_of_inRange hrange hN).mpr h0

/-- Settles O44: the two spellings of a tap set. -/
theorem tapSetsAreChecked : Obligations.TapSetsAreChecked := by
  refine ⟨fun N j l => ⟨fun h => ?positions, fun h => elabTaps_of_not_legal (Bool.eq_false_iff.mpr ?_) j⟩,
    fun N j m => ⟨fun h => ?mask, fun h => elabTaps_of_not_legal (Bool.eq_false_iff.mpr ?_) j⟩⟩
  case positions =>
    exact ⟨_, elabTaps_of_legal (legalTapSpec_positions_iff.mpr h) j, fun i => maskOf_getLsbD_of_inRange h.1⟩
  case mask =>
    refine ⟨_, elabTaps_of_legal (legalTapSpec_mask_iff.mpr h) j, ?_⟩
    rw [tapMask, BitVec.toNat_ofNat, Nat.mod_eq_of_lt h.1]
  · exact mt legalTapSpec_positions_iff.mp h
  · exact mt legalTapSpec_mask_iff.mp h

/-! ### Monomials (R18, R100) -/

theorem find_not_inRange_eq_none_iff {N : Nat} {m : List Int} :
    (m.find? fun p => !inRange N p) = none ↔ ∀ p ∈ m, 0 ≤ p ∧ p < N := by
  simp only [List.find?_eq_none, Bool.not_eq_true', Bool.not_eq_false, inRange_iff]

theorem elabMonomials_cons_of_inRange {N : Nat} {m : List Int} (hm : ∀ p ∈ m, 0 ≤ p ∧ p < N) (j : Nat)
    (rest : List (List Int)) :
    elabMonomials N j (m :: rest) = (elabMonomials N (j + 1) rest).map fun Ms => maskOf N m :: Ms := by
  rw [elabMonomials, find_not_inRange_eq_none_iff.mpr hm]

/-- Monomials in range become their masks, in order. -/
theorem elabMonomials_of_inRange {N : Nat} {F : List (List Int)} (hF : ∀ m ∈ F, ∀ p ∈ m, 0 ≤ p ∧ p < N) (j : Nat) :
    elabMonomials N j F = .ok (F.map (maskOf N)) := by
  induction F generalizing j with
  | nil => rfl
  | cons m rest ih =>
    obtain ⟨hm, hrest⟩ := List.forall_mem_cons.mp hF
    rw [elabMonomials_cons_of_inRange hm, ih hrest]
    rfl

/-- The first position out of range in its monomial is found. -/
theorem find_not_inRange {N : Nat} {before after : List Int} {p : Int} (hbefore : ∀ q ∈ before, 0 ≤ q ∧ q < N)
    (hp : ¬(0 ≤ p ∧ p < N)) : ((before ++ p :: after).find? fun q => !inRange N q) = some p := by
  have hfalse : inRange N p = false := by rwa [← Bool.not_eq_true, inRange_iff]
  rw [List.find?_append, find_not_inRange_eq_none_iff.mpr hbefore, Option.none_or, List.find?_cons, hfalse]
  rfl

/-- The first monomial with a position out of range is reported, with its index. -/
theorem elabMonomials_of_not_inRange {N : Nat} {good : List (List Int)} {before after : List Int} {p : Int}
    (hgood : ∀ m ∈ good, ∀ q ∈ m, 0 ≤ q ∧ q < N) (hbefore : ∀ q ∈ before, 0 ≤ q ∧ q < N) (hp : ¬(0 ≤ p ∧ p < N))
    (rest : List (List Int)) (j : Nat) :
    elabMonomials N j (good ++ (before ++ p :: after) :: rest) = .error (.invalidMonomial (j + good.length) p) := by
  induction good generalizing j with
  | nil => rw [List.nil_append, elabMonomials, find_not_inRange hbefore hp]; rfl
  | cons m good ih =>
    obtain ⟨hm, hrest⟩ := List.forall_mem_cons.mp hgood
    rw [List.cons_append, elabMonomials_cons_of_inRange hm, ih hrest, List.length_cons, Nat.add_comm good.length,
      Nat.add_assoc]
    rfl

/-- Where some position is out of range the refusal is `InvalidMonomial`. -/
theorem elabMonomials_of_exists {N : Nat} {F : List (List Int)} (hF : ∃ m ∈ F, ∃ p ∈ m, ¬(0 ≤ p ∧ p < N)) (j : Nat) :
    ∃ k p, elabMonomials N j F = .error (.invalidMonomial k p) := by
  induction F generalizing j with
  | nil => simp at hF
  | cons m rest ih =>
    cases hfind : m.find? fun p => !inRange N p with
    | some p => exact ⟨j, p, by rw [elabMonomials, hfind]⟩
    | none =>
      have hm := find_not_inRange_eq_none_iff.mp hfind
      have hrest : ∃ m' ∈ rest, ∃ p ∈ m', ¬(0 ≤ p ∧ p < N) := by
        rcases (List.exists_mem_cons_iff ..).mp hF with ⟨p, hp, hbad⟩ | hrest
        · exact absurd (hm p hp) hbad
        · exact hrest
      obtain ⟨k, p, hk⟩ := ih hrest (j + 1)
      exact ⟨k, p, by rw [elabMonomials_cons_of_inRange hm, hk]; rfl⟩

/-- Settles O45: the masks in order, and the refusal of the first position out of range. -/
theorem monomialsAreChecked : Obligations.MonomialsAreChecked := by
  refine ⟨fun N j F hF => ⟨F.map (maskOf N), elabMonomials_of_inRange hF j, List.length_map _,
    fun k m M hm hM i hi => ?_⟩,
    fun N j good before p after rest hgood hbefore hp => elabMonomials_of_not_inRange hgood hbefore hp rest j⟩
  rw [List.getElem?_map, hm] at hM
  obtain rfl := Option.some.inj hM
  exact maskOf_getLsbD_of_inRange (hF m (List.mem_of_getElem? hm)) hi

/-! ### Truth tables (R19, R104) -/

theorem legalTable_iff {tt : List Int} : legalTable tt = true ↔ tt.length = 8 ∧ ∀ b ∈ tt, b = 0 ∨ b = 1 := by
  simp only [legalTable, Bool.and_eq_true, List.all_eq_true, Bool.or_eq_true, decide_eq_true_eq]

theorem elabTable_of_legal {tt : List Int} (h : legalTable tt = true) : elabTable tt = .ok (tableOf tt) := by
  rw [elabTable, if_pos h]

theorem elabTable_of_not_legal {tt : List Int} (h : legalTable tt = false) :
    elabTable tt = .error (.invalidTruthTable tt) := by
  rw [elabTable, h, if_neg Bool.false_ne_true]

/-- Entry `idx` of the list is bit `idx` of the table. -/
theorem tableOf_getLsbD {tt : List Int} {idx : Nat} (hidx : idx < 8) :
    (tableOf tt).getLsbD idx = true ↔ tt[idx]? = some 1 := by
  rw [tableOf, BitVec.getLsbD_ofNat, bitsNumber_testBit, List.getElem?_map]
  cases tt[idx]? <;> simp [hidx]

/-- Settles O46: the table's bits are the list's entries, and any other list is refused. -/
theorem truthTablesAreChecked : Obligations.TruthTablesAreChecked :=
  fun _ => ⟨fun h => ⟨_, elabTable_of_legal (legalTable_iff.mpr h), fun _ => tableOf_getLsbD⟩,
    fun h => elabTable_of_not_legal (Bool.eq_false_iff.mpr (mt legalTable_iff.mp h))⟩

/-! ### The order of the checks (R106) -/

theorem elabLength_of_lt {n : Int} (h : n < 1) : elabLength n = .error (.invalidLength (.register n)) := by
  rw [elabLength, if_pos h]

theorem elabLength_of_le {n : Int} (h : 1 ≤ n) : elabLength n = .ok n.toNat := by
  rw [elabLength, if_neg (by omega)]

section
variable {ε α β : Type}

theorem except_ok_bind (a : α) (f : α → Except ε β) : (Except.ok a >>= f) = f a := rfl

theorem except_error_bind (e : ε) (f : α → Except ε β) : (Except.error e >>= f) = .error e := rfl

theorem except_bind_eq_ok {x : Except ε α} {f : α → Except ε β} {b : β} (h : (x >>= f) = .ok b) :
    ∃ a, x = .ok a ∧ f a = .ok b := by
  cases x with
  | ok a => exact ⟨a, rfl, h⟩
  | error e => cases h

end

section
variable {r : CgSpec}

theorem elabCg_of_lt (hn : r.n < 1) : elabCg r = .error (.invalidLength (.register r.n)) := by
  simp only [elabCg, elabLength_of_lt hn, except_error_bind]

theorem elabCg_of_not_legal_taps0 (hn : 1 ≤ r.n) (h0 : legalTapSpec r.n.toNat r.taps0 = false) :
    elabCg r = .error (.invalidTapSet 0 r.taps0) := by
  simp only [elabCg, elabLength_of_le hn, elabTaps_of_not_legal h0, except_ok_bind, except_error_bind]

theorem elabCg_of_not_legal_taps1 (hn : 1 ≤ r.n) (h0 : legalTapSpec r.n.toNat r.taps0 = true)
    (h1 : legalTapSpec r.n.toNat r.taps1 = false) : elabCg r = .error (.invalidTapSet 1 r.taps1) := by
  simp only [elabCg, elabLength_of_le hn, elabTaps_of_legal h0, elabTaps_of_not_legal h1, except_ok_bind,
    except_error_bind]

theorem elabCg_of_not_legal_taps2 (hn : 1 ≤ r.n) (h0 : legalTapSpec r.n.toNat r.taps0 = true)
    (h1 : legalTapSpec r.n.toNat r.taps1 = true) (h2 : legalTapSpec r.n.toNat r.taps2 = false) :
    elabCg r = .error (.invalidTapSet 2 r.taps2) := by
  simp only [elabCg, elabLength_of_le hn, elabTaps_of_legal h0, elabTaps_of_legal h1, elabTaps_of_not_legal h2,
    except_ok_bind, except_error_bind]

theorem elabCg_of_not_legal_table (hn : 1 ≤ r.n) (h0 : legalTapSpec r.n.toNat r.taps0 = true)
    (h1 : legalTapSpec r.n.toNat r.taps1 = true) (h2 : legalTapSpec r.n.toNat r.taps2 = true)
    (htt : legalTable r.tt = false) : elabCg r = .error (.invalidTruthTable r.tt) := by
  simp only [elabCg, elabLength_of_le hn, elabTaps_of_legal h0, elabTaps_of_legal h1, elabTaps_of_legal h2,
    elabTable_of_not_legal htt, except_ok_bind, except_error_bind]

theorem elabCg_of_ok {T0 T1 T2 : BitVec r.n.toNat} {TT : BitVec 8} (hn : 1 ≤ r.n)
    (h0 : elabTaps r.n.toNat 0 r.taps0 = .ok T0) (h1 : elabTaps r.n.toNat 1 r.taps1 = .ok T1)
    (h2 : elabTaps r.n.toNat 2 r.taps2 = .ok T2) (htt : elabTable r.tt = .ok TT) :
    elabCg r = .ok { N := r.n.toNat, T0 := T0, T1 := T1, T2 := T2, TT := TT } := by
  simp only [elabCg, elabLength_of_le hn, h0, h1, h2, htt, except_ok_bind]
  rfl

end

section
variable {r : RegisterSpec}

theorem elabLfsr_elabFr_of_lt (hn : r.n < 1) :
    elabLfsr r = .error (.invalidLength (.register r.n)) ∧ elabFr r = .error (.invalidLength (.register r.n)) := by
  simp only [elabLfsr, elabFr, elabLength_of_lt hn, except_error_bind, and_self]

theorem elabLfsr_elabFr_of_not_legal_taps (hn : 1 ≤ r.n) (ht : legalTapSpec r.n.toNat r.taps = false) :
    elabLfsr r = .error (.invalidTapSet 0 r.taps) ∧ elabFr r = .error (.invalidTapSet 0 r.taps) := by
  simp only [elabLfsr, elabFr, elabLength_of_le hn, elabTaps_of_not_legal ht, except_ok_bind, except_error_bind,
    and_self]

theorem elabLfsr_elabFr_of_monomials_error {e : Refusal} (hn : 1 ≤ r.n) (ht : legalTapSpec r.n.toNat r.taps = true)
    (hF : elabMonomials r.n.toNat 0 r.F = .error e) : elabLfsr r = .error e ∧ elabFr r = .error e := by
  simp only [elabLfsr, elabFr, elabLength_of_le hn, elabTaps_of_legal ht, hF, except_ok_bind, except_error_bind,
    and_self]

theorem elabLfsr_elabFr_of_ok {T : BitVec r.n.toNat} {F : List (BitVec r.n.toNat)} (hn : 1 ≤ r.n)
    (ht : elabTaps r.n.toNat 0 r.taps = .ok T) (hF : elabMonomials r.n.toNat 0 r.F = .ok F) :
    elabLfsr r = .ok { N := r.n.toNat, T := T, F := F } ∧ elabFr r = .ok { N := r.n.toNat, T := T, F := F } := by
  simp only [elabLfsr, elabFr, elabLength_of_le hn, ht, hF, except_ok_bind]
  exact ⟨rfl, rfl⟩

end

section
variable {r : NlfSpec}

theorem elabNlf_of_lt (hn : r.n < 1) : elabNlf r = .error (.invalidLength (.register r.n)) := by
  simp only [elabNlf, elabLength_of_lt hn, except_error_bind]

theorem elabNlf_of_monomials_error {e : Refusal} (hn : 1 ≤ r.n) (hF : elabMonomials r.n.toNat 0 r.F = .error e) :
    elabNlf r = .error e := by
  simp only [elabNlf, elabLength_of_le hn, hF, except_ok_bind, except_error_bind]

theorem elabNlf_of_ok {F : List (BitVec r.n.toNat)} (hn : 1 ≤ r.n) (hF : elabMonomials r.n.toNat 0 r.F = .ok F) :
    elabNlf r = .ok { N := r.n.toNat, F := F } := by
  simp only [elabNlf, elabLength_of_le hn, hF, except_ok_bind]
  rfl

end

/-- Where some position is not in `[0, n-1]` the monomials are refused with `InvalidMonomial`. -/
theorem elabMonomials_toNat_of_exists {n : Int} {F : List (List Int)} (hn : 1 ≤ n)
    (hF : ∃ m ∈ F, ∃ p ∈ m, ¬(0 ≤ p ∧ p < n)) :
    ∃ j p, elabMonomials n.toNat 0 F = .error (.invalidMonomial j p) := by
  rw [← Int.toNat_of_nonneg (show 0 ≤ n by omega)] at hF
  exact elabMonomials_of_exists hF 0

/-- Settles O47: for each module type the first check that fails, in the order of R106, and the record where none
does. -/
theorem elaborationAcceptsOrReportsTheFirstFailure : Obligations.ElaborationAcceptsOrReportsTheFirstFailure := by
  refine ⟨fun r => ⟨elabCg_of_lt, elabCg_of_not_legal_taps0, elabCg_of_not_legal_taps1, elabCg_of_not_legal_taps2,
      elabCg_of_not_legal_table, fun T0 T1 T2 TT => elabCg_of_ok⟩,
    fun r => ⟨elabLfsr_elabFr_of_lt, elabLfsr_elabFr_of_not_legal_taps, fun e => elabLfsr_elabFr_of_monomials_error,
      fun hn ht hF => ?register, fun T F => elabLfsr_elabFr_of_ok⟩,
    fun r => ⟨elabNlf_of_lt, fun e => elabNlf_of_monomials_error, fun hn hF => ?nlf, fun F => elabNlf_of_ok⟩⟩
  case register =>
    obtain ⟨j, p, he⟩ := elabMonomials_toNat_of_exists hn hF
    exact ⟨j, p, elabLfsr_elabFr_of_monomials_error hn ht he⟩
  case nlf =>
    obtain ⟨j, p, he⟩ := elabMonomials_toNat_of_exists hn hF
    exact ⟨j, p, elabNlf_of_monomials_error hn he⟩

/-! ### What elaboration accepts is legal (R16, R17) -/

theorem elabLength_eq_ok {n : Int} {N : Nat} (h : elabLength n = .ok N) : 1 ≤ N ∧ (N : Int) = n := by
  rcases lt_or_ge n 1 with hn | hn
  · rw [elabLength_of_lt hn] at h
    cases h
  · rw [elabLength_of_le hn] at h
    obtain rfl := Except.ok.inj h
    omega

theorem legalTaps_of_elabTaps {N j : Nat} {t : TapSpec} {T : BitVec N} (hN : 1 ≤ N) (h : elabTaps N j t = .ok T) :
    LegalTaps T := by
  obtain ⟨ht, rfl⟩ := legalTapSpec_of_elabTaps h
  exact legalTaps_of_legalTapSpec hN ht

theorem elabLfsr_eq_ok {r : RegisterSpec} {l : LfsrConfig} (h : elabLfsr r = .ok l) : l.Legal ∧ (l.N : Int) = r.n := by
  obtain ⟨N, hN, h⟩ := except_bind_eq_ok h
  obtain ⟨T, hT, h⟩ := except_bind_eq_ok h
  obtain ⟨F, -, h⟩ := except_bind_eq_ok h
  obtain rfl := Except.ok.inj h
  obtain ⟨hle, hn⟩ := elabLength_eq_ok hN
  exact ⟨⟨hle, legalTaps_of_elabTaps hle hT⟩, hn⟩

theorem elabFr_eq_ok {r : RegisterSpec} {f : FrConfig} (h : elabFr r = .ok f) : f.Legal ∧ (f.N : Int) = r.n := by
  obtain ⟨N, hN, h⟩ := except_bind_eq_ok h
  obtain ⟨T, hT, h⟩ := except_bind_eq_ok h
  obtain ⟨F, -, h⟩ := except_bind_eq_ok h
  obtain rfl := Except.ok.inj h
  obtain ⟨hle, hn⟩ := elabLength_eq_ok hN
  exact ⟨⟨hle, legalTaps_of_elabTaps hle hT⟩, hn⟩

theorem elabNlf_eq_ok {r : NlfSpec} {n : NlfConfig} (h : elabNlf r = .ok n) : n.Legal ∧ (n.N : Int) = r.n := by
  obtain ⟨N, hN, h⟩ := except_bind_eq_ok h
  obtain ⟨F, -, h⟩ := except_bind_eq_ok h
  obtain rfl := Except.ok.inj h
  exact elabLength_eq_ok hN

theorem elabCg_eq_ok {r : CgSpec} {c : CgConfig} (h : elabCg r = .ok c) : c.Legal ∧ (c.N : Int) = r.n := by
  obtain ⟨N, hN, h⟩ := except_bind_eq_ok h
  obtain ⟨T0, h0, h⟩ := except_bind_eq_ok h
  obtain ⟨T1, h1, h⟩ := except_bind_eq_ok h
  obtain ⟨T2, h2, h⟩ := except_bind_eq_ok h
  obtain ⟨TT, -, h⟩ := except_bind_eq_ok h
  obtain rfl := Except.ok.inj h
  obtain ⟨hle, hn⟩ := elabLength_eq_ok hN
  exact ⟨⟨hle, legalTaps_of_elabTaps hle h0, legalTaps_of_elabTaps hle h1, legalTaps_of_elabTaps hle h2⟩, hn⟩

end Sys2Proof.Machine
end

section
/-! PROOF. From power-on (70_reset_and_hazards.md R115): the invariant holds, and until an instance's first reset its
reads raise `Uninitialized`, whatever commands complete. -/

namespace Sys2Proof.Machine

variable {i : Instr} {is : List Instr} {s t : State}

/-- What every completed command of a kind keeps, a completed run of such commands keeps. -/
theorem execAll_keeps {Q : State → Prop} {ok : Instr → Prop}
    (hstep : ∀ {i : Instr} {s t : State}, ok i → exec i s = .next t → Q s → Q t) (his : ∀ i ∈ is, ok i)
    (h : execAll is s = .next t) (hs : Q s) : Q t := by
  induction is generalizing s with
  | nil => exact Host.Outcome.next.inj h ▸ hs
  | cons i is ih =>
    obtain ⟨u, hu, hrest⟩ := execAll_cons_inv h
    obtain ⟨hi, his⟩ := List.forall_mem_cons.mp his
    exact ih his hrest (hstep hi hu hs)

theorem execAll_view (h : execAll is s = .next t) : t.view = s.view :=
  execAll_keeps (Q := fun u => u.view = s.view) (ok := fun _ => True) (fun _ hu hv => (exec_view hu).trans hv)
    (fun _ _ => trivial) h rfl

/-! ### An instance not reset stays so, and not initialized (R115) -/

/-- Not reset since power-on, and not initialized. -/
abbrev Lfsr.Fresh (l : Lfsr) : Prop := ¬l.wasReset = true ∧ ¬l.init = true

/-- Not reset since power-on, and not initialized. -/
abbrev Cg.Fresh (g : Cg) : Prop := ¬g.wasReset = true ∧ ¬g.init = true

theorem exec_lfsr_fresh (hi : ∀ op, i ≠ .lfsrReset op) (h : exec i s = .next t) (hs : s.lfsr.Fresh) : t.lfsr.Fresh := by
  obtain ⟨hreset, hinit⟩ := hs
  rw [Lfsr.Fresh, exec_lfsr_wasReset_iff h, exec_lfsr_init_iff h]
  constructor
  · rintro (hr | ⟨op, hop⟩)
    · exact hreset hr
    · exact hi op hop
  · rintro (⟨hr, -⟩ | ⟨hl, -⟩)
    · exact hreset hr
    · exact hinit hl

theorem exec_cg_fresh (hi : ∀ op, i ≠ .cgReset op) (h : exec i s = .next t) (hs : s.cg.Fresh) : t.cg.Fresh := by
  obtain ⟨hreset, hinit⟩ := hs
  rw [Cg.Fresh, exec_cg_wasReset_iff h, exec_cg_init_iff h]
  constructor
  · rintro (hr | ⟨op, hop⟩)
    · exact hreset hr
    · exact hi op hop
  · rintro (⟨hr, -⟩ | ⟨hg, -⟩)
    · exact hreset hr
    · exact hinit hg

theorem exec_fr_not_init (hi : ∀ op r, i ≠ .frReset op r) (h : exec i s = .next t) (hs : ¬s.fr.init = true) :
    ¬t.fr.init = true := by
  rw [exec_fr_init_iff h]
  exact fun hr => hr.elim (fun ⟨op, r, hop⟩ => hi op r hop) hs

theorem execAll_lfsr_init (his : ∀ op, .lfsrReset op ∉ is) (h : execAll is s = .next t) (hs : s.lfsr.Fresh) :
    t.lfsr.init = false :=
  Bool.eq_false_iff.mpr (execAll_keeps (Q := fun u => u.lfsr.Fresh) exec_lfsr_fresh
    (fun _ hi op hop => his op (hop ▸ hi)) h hs).2

theorem execAll_cg_init (his : ∀ op, .cgReset op ∉ is) (h : execAll is s = .next t) (hs : s.cg.Fresh) :
    t.cg.init = false :=
  Bool.eq_false_iff.mpr (execAll_keeps (Q := fun u => u.cg.Fresh) exec_cg_fresh
    (fun _ hi op hop => his op (hop ▸ hi)) h hs).2

theorem execAll_fr_init (his : ∀ op r, .frReset op r ∉ is) (h : execAll is s = .next t) (hs : ¬s.fr.init = true) :
    t.fr.init = false :=
  Bool.eq_false_iff.mpr (execAll_keeps (Q := fun u => ¬u.fr.init = true) exec_fr_not_init
    (fun _ hi op r hop => his op r (hop ▸ hi)) h hs)

/-- Legal configurations meet the invariant at power-on: nothing is initialized and nothing has run. -/
theorem powerOn_inv {l : LfsrConfig} {n : NlfConfig} {c : CgConfig} {f : FrConfig} (hl : l.Legal) (hn : n.Legal)
    (hc : c.Legal) (hf : f.Legal) (view : View) (prog : List PortDrive) : (powerOn l n c f view prog).Inv :=
  ⟨⟨hl, hn, hc, hf⟩, ⟨nofun, nofun⟩, Nat.zero_le _, rfl⟩

/-- Settles O48: what elaboration accepts is legal; an instance not reset stays not initialized, and its reads fault. -/
theorem powerOnReadsFaultUntilTheFirstReset : Obligations.PowerOnReadsFaultUntilTheFirstReset := by
  intro rl rf rn rc l n c f view prog hl hn hc hf
  obtain ⟨hl, hlN⟩ := elabLfsr_eq_ok hl
  obtain ⟨hn, hnN⟩ := elabNlf_eq_ok hn
  obtain ⟨hc, hcN⟩ := elabCg_eq_ok hc
  obtain ⟨hf, hfN⟩ := elabFr_eq_ok hf
  refine ⟨⟨powerOn_inv hl hn hc hf view prog, hlN, hnN, hcN, hfN, rfl, rfl, rfl⟩, fun is t h => ?_⟩
  have hv : t.view = .model := execAll_view h
  refine ⟨fun his => ?lfsr, fun his => ?cg, fun his => ?fr⟩
  case lfsr =>
    have hi := execAll_lfsr_init his h ⟨Bool.false_ne_true, Bool.false_ne_true⟩
    exact ⟨exec_lfsrStep_of_model hi hv, exec_lfsrEval_of_model hi hv⟩
  case cg =>
    have hi := execAll_cg_init his h ⟨Bool.false_ne_true, Bool.false_ne_true⟩
    exact ⟨exec_cgStep_of_model hi hv, exec_cgEval_of_model hi hv⟩
  case fr =>
    have hi := execAll_fr_init his h Bool.false_ne_true
    exact ⟨exec_frStep_of_model hi hv, exec_frEval_of_model hi hv⟩

end Sys2Proof.Machine
end

section
/-! PROOF. Frames: which command writes which register (10_state.md R21 to R23), the markers in full (R25), what a
command reads (R26), and that the index, the result port and past results are read by none (40_lfsr.md R72). -/

namespace Sys2Proof.Machine

variable {i : Instr} {s s' t : State}

/-! ### Another module type's instance is left as it was (R26) -/

theorem exec_lfsr_of_module_ne (h : exec i s = .next t) (hm : i.module ≠ .lfsr) : t.lfsr = s.lfsr := by
  cases exec_completed h with
  | lfsrReset | lfsrStep | lfsrLoad | lfsrLoadRandom => exact absurd rfl hm
  | lfsrIllegal101 | lfsrIllegal110 | lfsrIllegal111 => exact absurd rfl hm
  | _ => rfl

theorem exec_cg_of_module_ne (h : exec i s = .next t) (hm : i.module ≠ .cg) : t.cg = s.cg := by
  cases exec_completed h with
  | cgReset | cgStep | cgSetState => exact absurd rfl hm
  | cgIllegal011 | cgIllegal101 | cgIllegal110 | cgIllegal111 => exact absurd rfl hm
  | _ => rfl

theorem exec_fr_of_module_ne (h : exec i s = .next t) (hm : i.module ≠ .fr) : t.fr = s.fr := by
  cases exec_completed h with
  | frReset | frStep => exact absurd rfl hm
  | frIllegal010 | frIllegal011 | frIllegal101 | frIllegal110 | frIllegal111 => exact absurd rfl hm
  | _ => rfl

/-! ### Each register's own commands (R21 to R23) -/

/-- A reserved word completes in the hardware's view alone. -/
theorem exec_isIllegal_eq_false (h : exec i s = .next t) (hv : s.view = .model ∨ i.isIllegal = false) :
    i.isIllegal = false := by
  rcases hv with hv | hi
  · by_contra hi
    rw [exec_illegal_of_model (Bool.eq_true_of_not_eq_false hi) hv] at h
    cases h
  · exact hi

theorem exec_lfsr_of_not_writer (h : exec i s = .next t) (hi : i.isIllegal = false)
    (hw : i ≠ .lfsrStep ∧ (∀ v, i ≠ .lfsrLoad v) ∧ (∀ r, i ≠ .lfsrLoadRandom r) ∧ ∀ op, i ≠ .lfsrReset op) :
    t.lfsr = s.lfsr := by
  obtain ⟨hstep, hload, hrandom, hreset⟩ := hw
  cases exec_completed h with
  | lfsrStep => exact absurd rfl hstep
  | lfsrLoad v => exact absurd rfl (hload v)
  | lfsrLoadRandom r => exact absurd rfl (hrandom r)
  | lfsrReset op => exact absurd rfl (hreset op)
  | lfsrIllegal101 | lfsrIllegal110 | lfsrIllegal111 => cases hi
  | _ => rfl

theorem exec_cg_of_not_writer (h : exec i s = .next t) (hi : i.isIllegal = false)
    (hw : i ≠ .cgStep ∧ (∀ a b c, i ≠ .cgSetState a b c) ∧ ∀ op, i ≠ .cgReset op) : t.cg = s.cg := by
  obtain ⟨hstep, hset, hreset⟩ := hw
  cases exec_completed h with
  | cgStep => exact absurd rfl hstep
  | cgSetState a b c => exact absurd rfl (hset a b c)
  | cgReset op => exact absurd rfl (hreset op)
  | cgIllegal011 | cgIllegal101 | cgIllegal110 | cgIllegal111 => cases hi
  | _ => rfl

theorem exec_fr_of_not_writer (h : exec i s = .next t) (hi : i.isIllegal = false)
    (hw : i ≠ .frStep ∧ ∀ op r, i ≠ .frReset op r) : t.fr = s.fr := by
  obtain ⟨hstep, hreset⟩ := hw
  cases exec_completed h with
  | frStep => exact absurd rfl hstep
  | frReset op r => exact absurd rfl (hreset op r)
  | frIllegal010 | frIllegal011 | frIllegal101 | frIllegal110 | frIllegal111 => cases hi
  | _ => rfl

/-- Settles O50: a command that completes here is no reserved word, and each register has its own writers. -/
theorem registersAreWrittenOnlyByTheirCommands : Obligations.RegistersAreWrittenOnlyByTheirCommands := by
  intro i s t h hv
  have hi := exec_isIllegal_eq_false h hv
  exact ⟨exec_lfsr_of_not_writer h hi, exec_cg_of_not_writer h hi, exec_fr_of_not_writer h hi⟩

/-- Settles O51: the markers of every completed command, and a load before the first reset in full. -/
theorem initializedMarkersFollowTheirRule : Obligations.InitializedMarkersFollowTheirRule := by
  refine ⟨fun i s t h => ⟨exec_lfsr_init_iff h, exec_cg_init_iff h, exec_fr_init_iff h, exec_lfsr_wasReset_iff h,
    exec_cg_wasReset_iff h⟩, fun s v hr hv => ?lfsr, fun s k0 k1 k2 hr hk0 hk1 hk2 => ?cg⟩
  case lfsr =>
    obtain ⟨w, hw⟩ := operandVec_of_fits hv
    refine ⟨Config.unspecified s.lfsr.cfg.N s.drawn, s.drawn + 1, fun i hi => ?_⟩
    rcases hi with rfl | rfl
    · rw [exec_lfsrLoad_of_operandVec hw, giveLfsr_of_not_wasReset hr]; rfl
    · rw [exec_lfsrLoadRandom_of_operandVec hw, giveLfsr_of_not_wasReset hr]; rfl
  case cg =>
    obtain ⟨w0, h0⟩ := operandVec_of_fits hk0
    obtain ⟨w1, h1⟩ := operandVec_of_fits hk1
    obtain ⟨w2, h2⟩ := operandVec_of_fits hk2
    rw [exec_cgSetState_of_operandVec h0 h1 h2, giveCg_of_not_wasReset hr]
    exact ⟨_, _, _, _, rfl⟩

/-! ### What a command reads (R26) -/

/-- Only a load before the first reset takes a free value. -/
theorem Lfsr.given_congr {l : Lfsr} {k k' : Nat} (h : l.wasReset = false → k = k') (v : BitVec l.cfg.N) :
    l.given k v = l.given k' v := by
  cases hr : l.wasReset with
  | false => rw [h hr]
  | true => simp [Lfsr.given, hr]

/-- Only a `SET_STATE` before the first reset takes free values. -/
theorem Cg.given_congr {g : Cg} {k k' : Nat} (h : g.wasReset = false → k = k') (v0 v1 v2 : BitVec g.cfg.N) :
    g.given k v0 v1 v2 = g.given k' v0 v1 v2 := by
  cases hr : g.wasReset with
  | false => rw [h hr]
  | true => simp [Cg.given, hr]

/-- The command `i` at `s'` shows, and adds to the results, what it did from `s` to `t`; it leaves the state `t'`. -/
def RepeatsAt (i : Instr) (s t s' t' : State) : Prop :=
  exec i s' = .next t' ∧ t'.res = t.res ∧ ∃ new, t.results = s.results ++ new ∧ t'.results = s'.results ++ new

theorem repeatsAt_silent {t' : State} (h : exec i s' = .next t') (hres : t'.res = t.res) (ht : t.results = s.results)
    (ht' : t'.results = s'.results) : RepeatsAt i s t s' t' :=
  ⟨h, hres, [], by rw [ht, List.append_nil], by rw [ht', List.append_nil]⟩

theorem exec_lfsr_local (hm : i.module = .lfsr) (hl : s'.lfsr = s.lfsr) (hv : s'.view = s.view)
    (hd : s.usesFreeValues i = true → s'.drawn = s.drawn) (h : exec i s = .next t) :
    ∃ t', RepeatsAt i s t s' t' ∧ t'.lfsr = t.lfsr := by
  obtain ⟨l, n, g, f, prog, pc, rs, res, v, d⟩ := s'
  obtain rfl : l = s.lfsr := hl
  obtain rfl : v = s.view := hv
  cases exec_completed h with
  | lfsrNop => exact ⟨_, repeatsAt_silent rfl rfl rfl rfl, rfl⟩
  | lfsrReset op =>
    obtain rfl : d = s.drawn := hd rfl
    exact ⟨_, repeatsAt_silent rfl rfl rfl rfl, rfl⟩
  | lfsrStep hr => exact ⟨_, ⟨exec_lfsrStep_of_canRead hr, rfl, _, rfl, rfl⟩, rfl⟩
  | lfsrEval hr => exact ⟨_, ⟨exec_lfsrEval_of_canRead hr, rfl, _, rfl, rfl⟩, rfl⟩
  | lfsrLoad v w hw =>
    exact ⟨_, repeatsAt_silent (exec_lfsrLoad_of_operandVec hw) rfl rfl rfl,
      Lfsr.given_congr (fun hr => hd (by simp [State.usesFreeValues, hr])) w⟩
  | lfsrLoadRandom r w hw =>
    exact ⟨_, repeatsAt_silent (exec_lfsrLoadRandom_of_operandVec hw) rfl rfl rfl,
      Lfsr.given_congr (fun hr => hd (by simp [State.usesFreeValues, hr])) w⟩
  | lfsrIllegal101 hw | lfsrIllegal110 hw | lfsrIllegal111 hw =>
    obtain rfl : d = s.drawn := hd rfl
    exact ⟨_, repeatsAt_silent (exec_illegal_of_hardware rfl hw) rfl rfl rfl, rfl⟩
  | _ => cases hm

theorem exec_nlf_local (hm : i.module = .nlf) (hn : s'.nlf = s.nlf) (h : exec i s = .next t) :
    ∃ t', RepeatsAt i s t s' t' := by
  obtain ⟨l, n, g, f, prog, pc, rs, res, v, d⟩ := s'
  obtain rfl : n = s.nlf := hn
  cases exec_completed h with
  | nlfEval x w hw => exact ⟨_, exec_nlfEval_of_operandVec hw, rfl, _, rfl, rfl⟩
  | _ => cases hm

theorem exec_cg_local (hm : i.module = .cg) (hg : s'.cg = s.cg) (hv : s'.view = s.view)
    (hd : s.usesFreeValues i = true → s'.drawn = s.drawn) (h : exec i s = .next t) :
    ∃ t', RepeatsAt i s t s' t' ∧ t'.cg = t.cg := by
  obtain ⟨l, n, g, f, prog, pc, rs, res, v, d⟩ := s'
  obtain rfl : g = s.cg := hg
  obtain rfl : v = s.view := hv
  cases exec_completed h with
  | cgNop => exact ⟨_, repeatsAt_silent rfl rfl rfl rfl, rfl⟩
  | cgReset op =>
    obtain rfl : d = s.drawn := hd rfl
    exact ⟨_, repeatsAt_silent rfl rfl rfl rfl, rfl⟩
  | cgStep hr => exact ⟨_, ⟨exec_cgStep_of_canRead hr, rfl, _, rfl, rfl⟩, rfl⟩
  | cgEval hr => exact ⟨_, ⟨exec_cgEval_of_canRead hr, rfl, _, rfl, rfl⟩, rfl⟩
  | cgSetState k0 k1 k2 w0 w1 w2 h0 h1 h2 =>
    exact ⟨_, repeatsAt_silent (exec_cgSetState_of_operandVec h0 h1 h2) rfl rfl rfl,
      Cg.given_congr (fun hr => hd (by simp [State.usesFreeValues, hr])) w0 w1 w2⟩
  | cgIllegal011 hw | cgIllegal101 hw | cgIllegal110 hw | cgIllegal111 hw =>
    obtain rfl : d = s.drawn := hd rfl
    exact ⟨_, repeatsAt_silent (exec_illegal_of_hardware rfl hw) rfl rfl rfl, rfl⟩
  | _ => cases hm

theorem exec_fr_local (hm : i.module = .fr) (hf : s'.fr = s.fr) (hv : s'.view = s.view)
    (hd : s.usesFreeValues i = true → s'.drawn = s.drawn) (h : exec i s = .next t) :
    ∃ t', RepeatsAt i s t s' t' ∧ t'.fr = t.fr := by
  obtain ⟨l, n, g, f, prog, pc, rs, res, v, d⟩ := s'
  obtain rfl : f = s.fr := hf
  obtain rfl : v = s.view := hv
  cases exec_completed h with
  | frNop => exact ⟨_, repeatsAt_silent rfl rfl rfl rfl, rfl⟩
  | frReset op r w hw => exact ⟨_, repeatsAt_silent (exec_frReset_of_operandVec hw) rfl rfl rfl, rfl⟩
  | frStep hr => exact ⟨_, ⟨exec_frStep_of_canRead hr, rfl, _, rfl, rfl⟩, rfl⟩
  | frEval hr => exact ⟨_, ⟨exec_frEval_of_canRead hr, rfl, _, rfl, rfl⟩, rfl⟩
  | frIllegal010 hw | frIllegal011 hw | frIllegal101 hw | frIllegal110 hw | frIllegal111 hw =>
    obtain rfl : d = s.drawn := hd rfl
    exact ⟨_, repeatsAt_silent (exec_illegal_of_hardware rfl hw) rfl rfl rfl, rfl⟩
  | _ => cases hm

/-- Settles O52: the others' instances as they were, and the same effect wherever a command finds its own instance. -/
theorem instancesShareNothing : Obligations.InstancesShareNothing := by
  refine ⟨fun i s t h => ⟨exec_lfsr_of_module_ne h, exec_nlf h, exec_cg_of_module_ne h, exec_fr_of_module_ne h⟩,
    fun i s s' t h hv hd hown => ?_⟩
  rcases hown with ⟨hm, hl⟩ | ⟨hm, hn⟩ | ⟨hm, hg⟩ | ⟨hm, hf⟩
  · obtain ⟨t', ⟨hexec, hres, new, hnew, hnew'⟩, hsame⟩ := exec_lfsr_local hm hl hv hd h
    exact ⟨t', new, hexec, hres, hnew, hnew', fun _ => hsame, by simp [hm], by simp [hm]⟩
  · obtain ⟨t', hexec, hres, new, hnew, hnew'⟩ := exec_nlf_local hm hn h
    exact ⟨t', new, hexec, hres, hnew, hnew', by simp [hm], by simp [hm], by simp [hm]⟩
  · obtain ⟨t', ⟨hexec, hres, new, hnew, hnew'⟩, hsame⟩ := exec_cg_local hm hg hv hd h
    exact ⟨t', new, hexec, hres, hnew, hnew', by simp [hm], fun _ => hsame, by simp [hm]⟩
  · obtain ⟨t', ⟨hexec, hres, new, hnew, hnew'⟩, hsame⟩ := exec_fr_local hm hf hv hd h
    exact ⟨t', new, hexec, hres, hnew, hnew', by simp [hm], by simp [hm], fun _ => hsame⟩

/-! ### Index, result port and past results (R72) -/

/-- The state at another index, with another result port and other past results. -/
def State.replaced (s : State) (k : Nat) (r : ResPort) (rs : List (ModuleType × Bool)) : State :=
  { s with pc := k, res := r, results := rs }

/-- The command `i` moves the index, drives the result port and extends the results alike from any others. -/
def IgnoresTheRecord (i : Instr) (s t : State) (k : Nat) (r : ResPort) (rs : List (ModuleType × Bool)) : Prop :=
  ∃ new, t.results = s.results ++ new ∧ exec i (s.replaced k r rs) = .next (t.replaced (k + 1) t.res (rs ++ new))

theorem ignoresTheRecord_silent {k : Nat} {r : ResPort} {rs : List (ModuleType × Bool)} (ht : t.results = s.results)
    (he : exec i (s.replaced k r rs) = .next (t.replaced (k + 1) t.res rs)) : IgnoresTheRecord i s t k r rs :=
  ⟨[], by rw [ht, List.append_nil], by rw [he, List.append_nil]⟩

/-- No command reads the index, the result port or past results but to move, drive and extend them. -/
theorem exec_replaced (h : exec i s = .next t) (k : Nat) (r : ResPort) (rs : List (ModuleType × Bool)) :
    IgnoresTheRecord i s t k r rs := by
  cases exec_completed h with
  | lfsrNop | cgNop | frNop | lfsrReset | cgReset => exact ignoresTheRecord_silent rfl rfl
  | lfsrStep hr => exact ⟨_, rfl, exec_lfsrStep_of_canRead hr⟩
  | lfsrEval hr => exact ⟨_, rfl, exec_lfsrEval_of_canRead hr⟩
  | cgStep hr => exact ⟨_, rfl, exec_cgStep_of_canRead hr⟩
  | cgEval hr => exact ⟨_, rfl, exec_cgEval_of_canRead hr⟩
  | frStep hr => exact ⟨_, rfl, exec_frStep_of_canRead hr⟩
  | frEval hr => exact ⟨_, rfl, exec_frEval_of_canRead hr⟩
  | nlfEval x w hw => exact ⟨_, rfl, exec_nlfEval_of_operandVec hw⟩
  | lfsrLoad v w hw => exact ignoresTheRecord_silent rfl (exec_lfsrLoad_of_operandVec hw)
  | lfsrLoadRandom v w hw => exact ignoresTheRecord_silent rfl (exec_lfsrLoadRandom_of_operandVec hw)
  | cgSetState k0 k1 k2 w0 w1 w2 h0 h1 h2 => exact ignoresTheRecord_silent rfl (exec_cgSetState_of_operandVec h0 h1 h2)
  | frReset op v w hw => exact ignoresTheRecord_silent rfl (exec_frReset_of_operandVec hw)
  | lfsrIllegal101 hw | lfsrIllegal110 hw | lfsrIllegal111 hw =>
    exact ignoresTheRecord_silent rfl (exec_illegal_of_hardware rfl hw)
  | cgIllegal011 hw | cgIllegal101 hw | cgIllegal110 hw | cgIllegal111 hw =>
    exact ignoresTheRecord_silent rfl (exec_illegal_of_hardware rfl hw)
  | frIllegal010 hw | frIllegal011 hw | frIllegal101 hw | frIllegal110 hw | frIllegal111 hw =>
    exact ignoresTheRecord_silent rfl (exec_illegal_of_hardware rfl hw)

/-- The same where the past results are the state's own. -/
theorem exec_retimed (h : exec i s = .next t) (k : Nat) (r : ResPort) :
    exec i (s.replaced k r s.results) = .next (t.replaced (k + 1) t.res t.results) := by
  obtain ⟨new, hnew, he⟩ := exec_replaced h k r s.results
  rw [he, hnew]

/-- The command is no `NOP`. -/
def isWork (i : Instr) : Bool := decide (i ≠ .lfsrNop ∧ i ≠ .cgNop ∧ i ≠ .frNop)

theorem isWork_eq_false_iff : isWork i = false ↔ i = .lfsrNop ∨ i = .cgNop ∨ i = .frNop := by
  rw [isWork, decide_eq_false_iff_not]
  tauto

/-- A run without its `NOP`s ends in the same state but for the index and the result port. -/
theorem execAll_filter_isWork {is : List Instr} (h : execAll is s = .next t) (k : Nat) (r : ResPort) :
    ∃ k' r', execAll (is.filter isWork) (s.replaced k r s.results) = .next (t.replaced k' r' t.results) := by
  induction is generalizing s k r with
  | nil =>
    obtain rfl := Host.Outcome.next.inj h
    exact ⟨k, r, rfl⟩
  | cons i is ih =>
    obtain ⟨u, hu, hrest⟩ := execAll_cons_inv h
    cases hw : isWork i with
    | true =>
      rw [List.filter_cons_of_pos hw, execAll_cons_next (exec_retimed hu k r)]
      exact ih hrest (k + 1) u.res
    | false =>
      rw [exec_of_nop (isWork_eq_false_iff.mp hw)] at hu
      obtain rfl := Host.Outcome.next.inj hu
      rw [List.filter_cons_of_neg (Bool.not_eq_true _ ▸ hw)]
      exact ih hrest k r

/-- Settles O55: a command does not see when it runs, and the run without `NOP`s differs in that alone. -/
theorem nopsMayBeDropped : Obligations.NopsMayBeDropped := by
  refine ⟨fun i s t k r rs h => exec_replaced h k r rs, fun is s t h => ?_⟩
  obtain ⟨k', r', hu⟩ := execAll_filter_isWork h s.pc s.res
  exact ⟨_, hu, rfl, rfl, rfl, rfl⟩

end Sys2Proof.Machine
end
